-- ==== Sys2Proof/Word.lean ====
section
/-! DEFINITION. The word types: a register word (R13: 32 bits) and a byte. -/

namespace Sys2Proof

/-- A register word (R13: "Registers are 32 bits and little-endian"). -/
abbrev Word := BitVec 32

/-- A byte of a message, a buffer, a memory. -/
abbrev Byte := BitVec 8

end Sys2Proof
end

