-- ==== Sys2Proof/Syntax.lean ====
section
/-!
DEFINITION. The commands of the block: one constructor of `Instr` per row of the spec's opcode table, with the row's
operands, and the types of those operands. A command is a stimulus that reaches the module: a register access, a bus or
ring message, a timer or converter event, an edge on a pin, or the end of work that one of its engines does.
-/

namespace Sys2Proof

/-- A side of the module (R2): one complete controller. -/
inductive SideId where
  | a
  | b
  deriving DecidableEq, Repr

/-- The partner of a side. -/
def SideId.other : SideId → SideId
  | .a => .b
  | .b => .a

/-- The side as the spec numbers it in records and registers: A is 0, B is 1. -/
def SideId.toNat : SideId → Nat
  | .a => 0
  | .b => 1

/-- How a Mouthpiece command reached the module (R202): a command ring, the service I²C bus, or the management port. -/
inductive Via where
  | ring (n : Nat)
  | i2c
  | udp
  deriving DecidableEq, Repr

/-- A Mouthpiece command message as the mailbox engine hands it on (R174): the header fields that its meaning uses, its
payload, and the bytes of the host buffer its BUF_ADDR and BUF_LEN name, when its LONG flag is set. -/
structure Msg where
  side     : SideId
  via      : Via
  tag      : Nat
  flags    : Nat
  affinity : Nat
  payload  : List Byte
  buf      : Option (List Byte)
  deriving DecidableEq, Repr

/-- An entry of a side's endpoint into ASPM L1 (R133): `host` says that it is the downstream request, not the endpoint's own. -/
structure L1Entry where
  side : SideId
  host : Bool
  deriving DecidableEq, Repr

/-- An access of the mailbox engine to host memory for a ring (R150, R157): a read of an entry, or with `write` a write. -/
structure RingAccess where
  ring  : Nat
  write : Bool
  deriving DecidableEq, Repr

/-- What a tick of line tracking samples beside the speeds (R54, R55, R225): the interpolated positions of the four channels, and
whether IO24_IN is supplied. -/
structure LineInputs where
  ipos : List Int
  io24 : Bool
  deriving DecidableEq, Repr

/-- The width a PCI Express link trains at, and which of the two cables of X5 are mated (R50). -/
structure LinkWidth where
  width : Nat
  x51   : Bool
  x52   : Bool
  deriving DecidableEq, Repr

/-- Raw symbol errors that a device puts into codewords of image memory before a read (R671): for each codeword, by
its offset, the symbols that differ and by which bits. -/
abbrev SymErrs := List (Nat × List (Nat × Byte))

/-- What the reads for a decoded line met (R271, R361): the symbol errors, and the panel and field of a bitplane that the overlay stage
could not read. -/
structure LineReads where
  errs     : SymErrs
  bitplane : Option (Nat × Nat)
  deriving DecidableEq, Repr

/-- What a calibration measured of one item (R549, R551): the item (R539), the results of runs A and B as user entries, how
far the runs differ in each quantity that R542 gives a tolerance for, in 1/1000 of that tolerance's unit, and the item's
primary figure. -/
structure CalResult where
  side    : Nat
  inst    : Nat
  index   : Nat
  offsets : Int × Int
  gains   : Int × Int
  diffs   : List Nat
  primary : Int
  deriving DecidableEq, Repr

/-- The address straps (R69, R70): a strap reads 0 when tied and 1 when open. -/
structure Straps where
  svcAddrOpen : Bool
  modId       : Nat
  seqTermTied : Bool
  deriving DecidableEq, Repr

/-- The two reset outputs (R115). -/
inductive ResetOut where
  | host
  | head
  deriving DecidableEq, Repr

/-- What resets an endpoint (R135). -/
inductive LinkResetKind where
  | flr
  | hot
  | perst
  | linkDown
  deriving DecidableEq, Repr

/-- The window a register access goes through: BAR0 holds the block registers, BAR4 the rings and the global page. The word of the
MSI-X capability that holds MSI-X Enable (bit 31) and Function Mask (bit 30) lies in configuration space (R132), and so does the Link
Control word by which the host enables ASPM L1 (R133). -/
inductive Bar where
  | bar0
  | bar4
  | msixCtl
  | linkCtl
  deriving DecidableEq, Repr

/-- The faults a beam is judged for (R429). -/
inductive BeamFaultKind where
  | openCircuit
  | shortCircuit
  | overload
  deriving DecidableEq, Repr

/-- A channel of an interlock loop (R73). -/
inductive LoopChan where
  | a
  | b
  deriving DecidableEq, Repr

/-- The two interlock loops on X37 (R72). -/
inductive ILoop where
  | laser
  | hv
  deriving DecidableEq, Repr

/-- What the motor front end measures at a torque-control tick (R443): two phase currents and the bus voltage. -/
structure MotorSample where
  iu   : Int
  iv   : Int
  vbus : Nat
  deriving DecidableEq, Repr

/-- A BiSS-C frame (R453): its position and how it arrived. -/
inductive BissFrame where
  | good (position : Nat)
  | badCrc
  | errorBit
  | timeout
  deriving DecidableEq, Repr

/-- The sleep states (R562). -/
inductive SleepState where
  | idle
  | doze
  | hibernate
  deriving DecidableEq, Repr

/-- The wake sources of R566; a doorbell carries its ring and index. -/
inductive WakeSrc where
  | i2c
  | encoder (ch : Nat)
  | button
  | doorbell (d : SideId) (ring index : Nat)
  | ethernet
  deriving DecidableEq, Repr

/-- The rows of the side fault table (R589). -/
inductive SideFaultRow where
  | lockstep (pair : Nat)
  | watchdog
  | internalMemory
  | datapathParity (station : Nat)
  | imageMemory
  | dieShutdown
  | supply
  | clock
  | securityError
  | aliveStopped
  | standbyDecision
  deriving DecidableEq, Repr

/-- What the tamper logic detected (R645, R647). -/
inductive TamperCause where
  | mesh
  | temperature
  | supply
  | clock
  deriving DecidableEq, Repr

/-- What a consumable token's certificate says of it (R638): INITIAL is its COUNT when new. -/
structure TokenCert where
  type      : Nat
  stations  : Nat
  serial    : Nat
  initial   : Nat
  unitLines : Nat
  deriving DecidableEq, Repr

/-- How a consumable token answered (R637 to R640): an authentication with its certificate, whether TOKEN_TRUST verifies it, the
COUNT and whether its signature verifies; a DECREMENT with its COUNT and whether the signature verifies; or no token. -/
inductive TokenAnswer where
  | authenticated (cert : TokenCert) (trusted : Bool) (count : Nat) (signed : Bool)
  | decremented (count : Nat) (signed : Bool)
  | absent
  deriving DecidableEq, Repr

/-- Where composition of a panel met an uncorrectable codeword (R361): in a field's bitplane, or in the template set or the
glyph store while it composed a field. -/
inductive ComposeFault where
  | bitplane (field : Nat)
  | templateSet (field : Nat)
  | glyphStore (field : Nat)
  deriving DecidableEq, Repr

/-- How the composition of a panel ends (R271, R361): the failure of a field, if one fails, and the symbol errors that Chanter's reads met. -/
structure ComposeResult where
  bad  : Option ComposeFault
  errs : SymErrs
  deriving DecidableEq, Repr

/-- The commands, in the order of the opcode table. -/
inductive Instr where
  /-- FEED_CHANGE (R80): A 48 V feed crosses its presence threshold. A feed that goes absent raises the system fault event. -/
  | feedChange (feed : Nat) (present : Bool) (mv : Nat)
  /-- POWER_GOOD (R81): The input after the ideal-diode OR has held at or above 42 V for 100 ms, and start-up begins on each fitted side. -/
  | powerGood
  /-- OTP_READ_DONE (R81): Drone finishes reading OTP and the factory calibration, the service and memory PLLs lock, and the user calibration layer is chosen. -/
  | otpReadDone (d : SideId)
  /-- KNOWN_ANSWER_TESTS_DONE (R643): The security core completes its power-up self-tests, or enters its error state when one fails. -/
  | knownAnswerTestsDone (d : SideId) (failed : Nat)
  /-- ENDPOINT_READY (R81): The PCI Express endpoint begins to answer configuration requests once PERST# has been released. -/
  | endpointReady (d : SideId)
  /-- FW_BANK_VERIFIED (R83): Verification of a firmware bank ends: it sets FW_OK, tries the other bank, or enters RECOVERY. -/
  | fwBankVerified (d : SideId) (ok : Bool)
  /-- DRAM_TRAINED (R81): DRAM training ends and initialisation of slice 0 begins. -/
  | dramTrained (d : SideId)
  /-- SLICE_INITIALISED (R81): A 1 GiB slice has been written and scrubbed, and its SLICE_READY bit is set. MEM_READY follows with the last slice. -/
  | sliceInitialised (d : SideId) (slice : Nat)
  /-- APP_READY (R81): The application cores have booted, and the other BAR0 blocks begin to respond. -/
  | appReady (d : SideId)
  /-- REDUCED_SERVICE (R81): The Mouthpiece rings start to work. MBOX_READY and REDUCED_SERVICE are set, and RST_HOST_N and AUTO_UP are handled. -/
  | reducedService (d : SideId)
  /-- ADC_SELF_CAL_DONE (R546): Converter self-calibration of every group ends and ADC_READY is set. -/
  | adcSelfCalDone (d : SideId) (items : List CalResult)
  /-- PXC_READY (R81): The imaging PLL, the pixel synthesizers and the datapath self-tests end, and PXC_READY is set. -/
  | pxcReady (d : SideId)
  /-- ENGINE_READY (R84): ENGINE_READY is set, together with PARTNER_READY or after 3.0 s without it, and the READY event is raised. -/
  | engineReady (d : SideId)
  /-- TOKEN_TO_SIDE_B (R84): At 1.5 s the arbiter gives the token to side B when side B has reached step 9 and side A has not. -/
  | tokenToSideB
  /-- LIGATURE_TRAINED (R628): Ligature trains, the HMAC key is established, and PARTNER_READY is set when both sides are at step 9 or beyond. -/
  | ligatureTrained (lanes : Nat) (keyOk : Bool)
  /-- STRAP_CHANGED (R70): A change of an address strap is seen and logged, and it takes effect only at the next power-up. -/
  | strapChanged (straps : Straps)
  /-- INPUT_LOW (R107): The input stays below 40 V for 2 ms, and the input-loss shutdown runs. -/
  | inputLow (mv : Nat)
  /-- COLLAPSE (R109): The input falls below 36 V. Every rail is released to its pull-down, the outputs are forced off, and STATE becomes RELEASED. -/
  | collapse
  /-- HOLDOFF_END (R108): The 200 ms restart hold-off ends, and the module restarts with RESET_CAUSE 0x1 once power-good holds. -/
  | holdoffEnd
  /-- ALWAYS_ON_LOST (R109): The internal store of the always-on domain runs out after a collapse, so the next start is a power-on. -/
  | alwaysOnLost
  /-- PB_SHORT_PRESS (R111): PB_N is released after a press of 50 ms to 8 s, and the press acts according to the sequencer state. -/
  | pbShortPress
  /-- PB_GRACE_END (R111): The push-button grace timer ends. Power-down starts, and an armed job ends as on JOB_ABORT. -/
  | pbGraceEnd
  /-- PB_LONG_PRESS (R112): PB_N has been held for 8 s. The shutdown steps run, both sides are held in reset, and the module enters SOFT_OFF. -/
  | pbLongPress
  /-- MR_ASSERT (R114): MR_N has been low for 1 ms. Both reset outputs are asserted and the input-loss shutdown runs. -/
  | mrAssert
  /-- MR_RELEASE (R114): MR_N is released, and the module restarts with RESET_CAUSE 0x3 once power-down has ended. -/
  | mrRelease
  /-- DRONE_WATCHDOG (R86): The Drone watchdog expires and the side restarts with RESET_CAUSE 0x6. -/
  | droneWatchdog (d : SideId)
  /-- GO_UP (R105): A write of 1 to SEQ_CTL.GO_UP makes an on request to the rail sequencer. -/
  | goUp (d : SideId)
  /-- GO_DOWN (R105): A write of 1 to SEQ_CTL.GO_DOWN makes an off request to the rail sequencer. -/
  | goDown (d : SideId)
  /-- RAIL_IN_WINDOW (R100): Every rail of a power-up step is in its warning window, and the step's dwell and reset stretches start. -/
  | railInWindow
  /-- STEP_END (R100): A power-up step ends at the later of its dwell and its stretch. The next step starts, or STATE becomes ON. -/
  | stepEnd
  /-- RISE_TIMEOUT (R100): A rail is not in its window at the end of RISE_TIMEOUT. The rail fault is raised and power-up reverses. -/
  | riseTimeout (rail mv : Nat)
  /-- RAIL_DISCHARGED (R101): Every rail of a power-down step reads DISCHARGED. The step ends, or STATE becomes OFF. -/
  | railDischarged
  /-- DISCHARGE_TIMEOUT (R102): A rail is not discharged at the end of DISCH_TIMEOUT. Its station is locked and power-down goes on. -/
  | dischargeTimeout (rail mv : Nat)
  /-- RAIL_FAULT (R104): A rail that is ON stays outside its fault window for the FILTER time, and its station's rails and beams are switched off. -/
  | railFault (rail mv ma : Nat)
  /-- RAIL_WARN (R104): A rail stays outside its warning window for 1 ms and raises the rail-warning event once. -/
  | railWarn (rail mv ma : Nat)
  /-- HEAD_ABSENT (R62): The debounced HEAD_PRES_N goes high with a rail on, and hardware switches off the station's rails and beams. -/
  | headAbsent (station : Nat)
  /-- PULSE_HOST (R115): A write of 1 to SEQ_RST_CFG.PULSE_HOST asserts RST_HOST_N for one stretch. -/
  | pulseHost (d : SideId)
  /-- PULSE_HEAD (R115): A write of 1 to SEQ_RST_CFG.PULSE_HEAD asserts RST_HEAD_N for one stretch. -/
  | pulseHead (d : SideId)
  /-- RESET_STRETCH_END (R115): The stretch of a reset output ends and the output is released. -/
  | resetStretchEnd (out : ResetOut)
  /-- HEARTBEAT_SEND (R119): The master's 1 ms timer sends a HEARTBEAT that polls the next slave. -/
  | heartbeatSend
  /-- HEARTBEAT (R124): A slave receives a valid HEARTBEAT and acts on any change of group state or group step. -/
  | heartbeat (polled state step count : Nat)
  /-- STATUS (R120): The master receives a slave's STATUS and applies its step completion, requests, faults and serial check. -/
  | status (src state cur flags stepCount : Nat) (serial : Word)
  /-- POLL_UNANSWERED (R122): A polled slave does not answer within 100 µs. After three such polls it is missing and the master acts. -/
  | pollUnanswered
  /-- RESTART (R118): A RESTART frame is received and the module restarts with RESET_CAUSE 0x5. -/
  | restart (dest : Nat)
  /-- BAD_FRAME (R117): A sequencing-bus frame with a bad SYNC, a bad CRC or a LEN above 16 is discarded and counted. -/
  | badFrame (frame : List Byte)
  /-- MASTER_LOST (R123): A slave hears no valid HEARTBEAT for 20 ms and acts as standalone. -/
  | masterLost
  /-- LINK_RESET (R135): A Function Level Reset, hot reset, PERST# or link loss resets only the endpoint, its rings, events and MSI-X state. -/
  | linkReset (d : SideId) (kind : LinkResetKind)
  /-- D3HOT_ENTRY (R133): The function enters D3hot. BAR decoding stops and no MSI-X message is sent. -/
  | d3hotEntry (d : SideId)
  /-- D0_RETURN (R133): The function returns to D0 with every register, ring and vector kept. -/
  | d0Return (d : SideId)
  /-- ASPM_L1_ENTRY (R133): With no job armed and L1 enabled, the link has been idle for 8 µs and the endpoint enters L1; a downstream
  request is honoured in any case. -/
  | aspmL1Entry (entry : L1Entry)
  /-- BAR2_READ (R131): A BAR2 read returns image memory, zeros for a slice not ready, or poisoned data for an uncorrectable codeword. -/
  | bar2Read (d : SideId) (addr len : Nat) (errs : SymErrs)
  /-- BAR2_WRITE (R138): A BAR2 write is applied to image memory, with a partial codeword merged, and it is mirrored to the partner. -/
  | bar2Write (d : SideId) (addr : Nat) (data : List Byte) (errs partnerErrs : SymErrs)
  /-- HIGH_WORD_LATCH (R221): A read of the low word of a latching 64-bit register latches its high word. -/
  | highWordLatch (d : SideId) (off : Nat)
  /-- SREC_DATA_READ (R333): A read of CDC_SREC_DATA returns a word of the state record and advances WORD. -/
  | srecDataRead (d : SideId)
  /-- REGISTER_WRITE (R14): A host write to any register without a row of its own acts under its access code: RW, W1C, W1S, RWL or FW. -/
  | registerWrite (d : SideId) (bar : Bar) (off : Nat) (words : List (Nat × Word))
  /-- MSIX_UNMASK (R132): A vector is unmasked and its pending message is sent. -/
  | msixUnmask (d : SideId) (vector : Nat)
  /-- RING_DB (R153): A doorbell write moves the host-owned index of a ring, or is ignored with BAD_DOORBELL. -/
  | ringDb (d : SideId) (ring index : Nat)
  /-- RING_ENABLE (R154): ENABLE goes from 0 to 1. The indices are zeroed, and a record ring republishes under R136. -/
  | ringEnable (d : SideId) (ring : Nat)
  /-- RING_DISABLE (R154): Clearing ENABLE stops the ring at once. Unfetched entries are abandoned and fetched work goes on. -/
  | ringDisable (d : SideId) (ring : Nat)
  /-- MESSAGE_FETCH (R157): The mailbox engine takes a whole command message once response room is reserved, and decides tag and form. -/
  | messageFetch (d : SideId) (ring : Nat) (bytes : List Byte)
  /-- FETCH_ERROR (R157): A read of a host-to-module ring entry fails or times out. The entry is not consumed and the ring waits for a doorbell;
  as a write, the access is a write into host memory for a ring that is refused with an error (R150). -/
  | fetchError (d : SideId) (access : RingAccess)
  /-- FORWARDED_MESSAGE (R137): A command forwarded from the partner over Ligature is ordered by the active side and carried out on both sides. -/
  | forwardedMessage (src : SideId) (ring : Nat) (bytes : List Byte)
  /-- EVT_SET (R167): A write of 1 to an EVT_SET bit counts one occurrence of that event, unless the event is never raised. -/
  | evtSet (d : SideId) (k : Nat) (mask : Word)
  /-- EVT_MASK_CLEAR (R171): Clearing a mask bit while its PEND bit is set counts one occurrence against the routed vector. -/
  | evtMaskClear (d : SideId) (k : Nat) (cleared : Word)
  /-- VECTOR_TIMER (R171): A vector's coalescing timer reaches TIME and the vector fires. -/
  | vectorTimer (d : SideId) (v : Nat)
  /-- SNAPSHOT_TICK (R173): Every PERIOD, the 128-byte status snapshot is written to host memory. -/
  | snapshotTick (d : SideId)
  /-- SVC_I2C_TRANSACTION (R202): A service I²C write transaction at the side's address carries a Mouthpiece command for Drone, and it wakes the module if needed. -/
  | svcI2cTransaction (addr : Nat) (bytes : List Byte)
  /-- MGMT_DATAGRAM (R202): A UDP datagram to port 56501 carries a Mouthpiece command for Drone. -/
  | mgmtDatagram (d : SideId) (bytes : List Byte)
  /-- SYS_IDENTIFY (R199): Returns release, protocol level, capabilities, serial and state. -/
  | sysIdentify (m : Msg)
  /-- SYS_STATUS (R200): Returns engine state, fault cause, deferred count and page counters. -/
  | sysStatus (m : Msg)
  /-- SYS_ECHO (R198): Returns its payload unchanged. -/
  | sysEcho (m : Msg)
  /-- SYS_CANCEL (R196): Cancels a deferred command that has not started. -/
  | sysCancel (m : Msg)
  /-- SYS_CLEAR_FAULT (R191): Returns the engine from FAULTED to CONFIGURED when the cause has gone. -/
  | sysClearFault (m : Msg)
  /-- SYS_RESTART (R198): Restarts the module or a side with RESET_CAUSE 0x4 after the response is stored. -/
  | sysRestart (m : Msg)
  /-- SYS_SET_TIME (R198): Sets the RTC. -/
  | sysSetTime (m : Msg)
  /-- SYS_LIST_DEFERRED (R198): Returns the tags of the deferred commands. -/
  | sysListDeferred (m : Msg)
  /-- DEFERRED_COMMAND_RUN (R193): A deferred W command starts when a long enough inter-page gap arrives, or at CONFIGURED. -/
  | deferredCommandRun
  /-- RAIL_CONFIG (R203): Writes a rail's SEQ_RAIL_CFG after range checks. -/
  | railConfig (m : Msg)
  /-- SEQ_PROGRAM (R203): Writes STEP_COUNT and the 16 step registers. -/
  | seqProgram (m : Msg)
  /-- SEQ_UP (R203): Requests rail power-up and is answered at ON, ST_RAIL_FAULT or ST_CANCELLED. -/
  | seqUp (m : Msg)
  /-- SEQ_DOWN (R203): Requests rail power-down and is answered at OFF. -/
  | seqDown (m : Msg)
  /-- SEQ_READ (R203): Returns SEQ_STAT and every rail measurement. -/
  | seqRead (m : Msg)
  /-- SEQ_PERSIST (R203): Commits SLAVE_MASK, PB_GRACE and AUTO_UP to MRAM atomically. -/
  | seqPersist (m : Msg)
  /-- RESET_PULSE (R203): Pulses RST_HEAD_N and/or RST_HOST_N. -/
  | resetPulse (m : Msg)
  /-- PWR_TIMERS (R564): Sets the IDLE, DOZE and HIBERNATE timers in MRAM. -/
  | pwrTimers (m : Msg)
  /-- PERF_CAP (R559): Sets the fastest permitted performance level. -/
  | perfCap (m : Msg)
  /-- JOB_DEFINE (R205): Defines a job from its 48-byte descriptor. -/
  | jobDefine (m : Msg)
  /-- JOB_ARM (R206): Arms a job when every condition holds, and the engine enters ARMED. -/
  | jobArm (m : Msg)
  /-- JOB_END (R189): Moves the engine to DRAINING and is answered at CONFIGURED. -/
  | jobEnd (m : Msg)
  /-- JOB_ABORT (R189): Withdraws uncommitted pages, blanks committed ones, and is answered at CONFIGURED. -/
  | jobAbort (m : Msg)
  /-- PAGE_QUEUE (R207): Queues a page descriptor for the job. -/
  | pageQueue (m : Msg)
  /-- PAGE_WITHDRAW (R197): Withdraws an uncommitted page, or returns ST_COMMITTED. -/
  | pageWithdraw (m : Msg)
  /-- JOB_READ (R204): Returns the job's page and record counts. -/
  | jobRead (m : Msg)
  /-- JOB_DELETE (R204): Deletes a job that is not armed. -/
  | jobDelete (m : Msg)
  /-- MEM_ALLOC (R209): Allocates an image memory region on both sides. -/
  | memAlloc (m : Msg)
  /-- MEM_FREE (R209): Frees a region not in use. -/
  | memFree (m : Msg)
  /-- PLANE_DEFINE (R327): Defines a raw or codec plane in a region after checking its layout or first band header. -/
  | planeDefine (m : Msg)
  /-- PLANE_ENCODE (R322): Queues the encoding of a raw plane into a codec plane. -/
  | planeEncode (m : Msg)
  /-- PLANE_ENCODE_DONE (R326): The encoder's pass over the whole plane ends, and the command is answered with the plane, ST_OUT_FULL or ST_MEM_ERROR. -/
  | planeEncodeDone (errA errB : Option Nat)
  /-- PLANE_DELETE (R209): Deletes a plane not in use. -/
  | planeDelete (m : Msg)
  /-- MEM_READ_STAT (R209): Returns free memory, slices, retired devices and corrected errors. -/
  | memReadStat (m : Msg)
  /-- TPL_LOAD (R336): Checks a template set whole and loads it. -/
  | tplLoad (m : Msg)
  /-- TPL_DELETE (R210): Deletes a template set not in use. -/
  | tplDelete (m : Msg)
  /-- GLYPH_LOAD (R346): Loads a glyph store. -/
  | glyphLoad (m : Msg)
  /-- COUNTER_SET (R352): Sets a counter's NEXT, or starts a new epoch. -/
  | counterSet (m : Msg)
  /-- COUNTER_READ (R210): Returns a counter's next, consumed and committed values. -/
  | counterRead (m : Msg)
  /-- LOT_SET (R342): Sets a lot text from the next page trigger. -/
  | lotSet (m : Msg)
  /-- FEED_SUBMIT (R349): Accepts host feed entries in order until one fails a check or the feed is full. -/
  | feedSubmit (m : Msg)
  /-- ENC_CONFIG (R230): Rewrites an encoder channel's configuration and clears FAULT, SUBSTITUTED and SUB_OFFSET. -/
  | encConfig (m : Msg)
  /-- STATION_OFFSET (R247): Sets a station's offset, which acts at the station's next page start. -/
  | stationOffset (m : Msg)
  /-- CMP_LOAD (R242): Loads and arms a compare unit. -/
  | cmpLoad (m : Msg)
  /-- CMP_STOP (R242): Disarms a compare unit. -/
  | cmpStop (m : Msg)
  /-- CAP_CONFIG (R231): Configures a capture input. -/
  | capConfig (m : Msg)
  /-- REJ_CONFIG (R231): Configures a reject output. -/
  | rejConfig (m : Msg)
  /-- LTK_READ (R211): Returns an encoder channel's position, speed, index status and skip count. -/
  | ltkRead (m : Msg)
  /-- MOTOR_CONFIG (R461): Configures a motor channel and clears its fault. -/
  | motorConfig (m : Msg)
  /-- MOTOR_SPEED (R463): Selects a motor's speed source and starts the motor. -/
  | motorSpeed (m : Msg)
  /-- MOTOR_STOP (R463): Ramps a motor to a stop and freewheels it, or brakes a stepper to HOLD. -/
  | motorStop (m : Msg)
  /-- STP_CONFIG (R473): Configures a stepper channel and clears its faults. -/
  | stpConfig (m : Msg)
  /-- STP_MOVE (R478): Starts or replaces a stepper move. -/
  | stpMove (m : Msg)
  /-- STP_GEAR (R486): Arms a gear engagement, ratio change or disengagement. -/
  | stpGear (m : Msg)
  /-- MOTION_READ (R464): Returns the state of a motor or stepper channel. -/
  | motionRead (m : Msg)
  /-- LOOP_LOAD (R497): Loads a loop descriptor without a step in the output. -/
  | loopLoad (m : Msg)
  /-- LOOP_SETPOINT (R509): Sets a loop's set-point. -/
  | loopSetpoint (m : Msg)
  /-- HV_SET (R514): Sets an HV output's mode, level and limit. -/
  | hvSet (m : Msg)
  /-- HV_ENABLE (R515): Starts or stops the HV outputs in a mask. -/
  | hvEnable (m : Msg)
  /-- FUSER_SET (R527): Configures a fuser channel. -/
  | fuserSet (m : Msg)
  /-- FUSER_ENABLE (R528): Starts or stops the fuser channels in a mask. -/
  | fuserEnable (m : Msg)
  /-- PROCESS_READ (R510): Returns the state of a loop, HV output or fuser channel. -/
  | processRead (m : Msg)
  /-- CAL_RUN (R542): Starts a calibration of the named instances, at once or deferred. -/
  | calRun (m : Msg)
  /-- CAL_RUN_DONE (R549): Runs A and B of a calibration end, and the repeat test accepts or rejects the result. -/
  | calRunDone (id : Nat) (items : List CalResult)
  /-- CAL_SPARE_STEP (R546): A spare converter's handover step completes at a sample boundary. -/
  | calSpareStep (d : SideId) (group : Nat)
  /-- CAL_USER_READ (R537): Writes the user layer as a calibration record to a host buffer. -/
  | calUserRead (m : Msg)
  /-- CAL_USER_WRITE (R537): Checks a calibration record and replaces the user entries that it names. -/
  | calUserWrite (m : Msg)
  /-- CAL_SAVE (R540): Saves the user layer over the older MRAM copy. -/
  | calSave (m : Msg) (readBackOk : Bool)
  /-- CAL_STATUS (R554): Returns CAL_STAT, the copy generations and CAL_RUNNING. -/
  | calStatus (m : Msg)
  /-- SELF_TEST (R214): Runs a station self-test, at once or deferred. -/
  | selfTest (m : Msg) (failing : Option Nat)
  /-- LIG_READ (R615): Returns the redundancy status. -/
  | ligRead (m : Msg)
  /-- HANDOVER (R598): Moves the token to a SHADOW partner at a dark moment within 100 ms. -/
  | handover (m : Msg)
  /-- FAULT_CLASS_SET (R606): Sets a class's window and threshold and clears its counts and lasting actions. -/
  | faultClassSet (m : Msg)
  /-- FAULT_CLASS_READ (R606): Returns an instance's count, threshold, window and lasting flag. -/
  | faultClassRead (m : Msg)
  /-- SEC_AUTH (R623): Verifies a signed challenge and grants the Crypto Officer role. -/
  | secAuth (m : Msg)
  /-- SEC_CHALLENGE (R623): Returns a fresh 32-byte challenge. -/
  | secChallenge (m : Msg)
  /-- SEC_CSR (R629): Generates a pending record-signing key and writes a CSR. -/
  | secCsr (m : Msg)
  /-- SEC_CERT_LOAD (R630): Loads a certificate or a public key into a key slot. -/
  | secCertLoad (m : Msg)
  /-- SEC_PUBKEY_READ (R626): Returns the public key of a slot. -/
  | secPubkeyRead (m : Msg)
  /-- SEC_TOKEN_READ (R642): Returns a consumable token's state and count. -/
  | secTokenRead (m : Msg)
  /-- SEC_ZEROISE (R646): Zeroises keys on both sides and regenerates the record-signing key. -/
  | secZeroise (m : Msg)
  /-- SEC_SELF_TEST (R643): Repeats the power-up self-tests. -/
  | secSelfTest (m : Msg) (failed : Nat)
  /-- LOG_FILTER (R670): Sets the lowest severity that a log ring publishes. -/
  | logFilter (m : Msg)
  /-- LOG_COPY (R217): Copies log entries from MRAM to a host buffer. -/
  | logCopy (m : Msg)
  /-- DIAG_STREAM (R217): Starts or stops a diagnostic stream on ring 62 or 63. -/
  | diagStream (m : Msg)
  /-- SHUTDOWN_READ (R574): Returns the pending thermal shutdown records. -/
  | shutdownRead (m : Msg)
  /-- SHUTDOWN_ACK (R574): Acknowledges every shutdown record and clears SHUTDOWN_REPORT. -/
  | shutdownAck (m : Msg)
  /-- FW_BEGIN (R218): Begins a firmware image in the bank not running. -/
  | fwBegin (m : Msg)
  /-- FW_DATA (R218): Writes image data into the bank not running. -/
  | fwData (m : Msg)
  /-- FW_VERIFY (R634): Verifies the written bank on each side. -/
  | fwVerify (m : Msg)
  /-- FW_ACTIVATE (R635): Commits the verified bank as PREFERRED with TRIAL set, and restarts if asked. -/
  | fwActivate (m : Msg)
  /-- FW_READ_STAT (R636): Returns the state of each bank. -/
  | fwReadStat (m : Msg)
  /-- ENC_COUNT (R222): A filtered step or up/down edge changes ENC_COUNT and ENC_POS of a channel. -/
  | encCount (ch : Nat) (aRise bRise bHigh : Bool)
  /-- INDEX_PULSE (R232): A Z edge while counting forward is taken as a reference or checked against ENC_INDEX_NOM. -/
  | indexPulse (ch : Nat)
  /-- ENC_LOS (R234): A differential input stays below 200 mV for 10 µs and an encoder fault is declared. -/
  | encLos (ch : Nat)
  /-- LTK_TICK (R237): A 10 µs tick updates ENC_SPEED, latches SUB_OFFSET_NEXT and evaluates disagreement and overspeed. -/
  | ltkTick (speeds : List Int) (inputs : LineInputs)
  /-- CAPTURE_EDGE (R252): A capture input edge latches ENC_POS. -/
  | captureEdge (input : Nat) (rising : Bool)
  /-- CAPTURE_FILTER_END (R252): The new level holds for FILTER, so the entry is kept, or it is lost on a full FIFO. -/
  | captureFilterEnd (input : Nat) (held : Bool)
  /-- CAP_POP (R251): A write of 1 to CAP_STAT.POP discards the oldest capture entry. -/
  | capPop (d : SideId) (input : Nat)
  /-- REJECT_PULSE_END (R257): A reject pulse's WIDTH ends and the output switches off, unless another pulse overlaps it. -/
  | rejectPulseEnd (output : Nat)
  /-- REJECT_OVERLOAD (R55): An output has been in current limit for 2 ms. It switches off and raises REJECT_OVERLOAD. -/
  | rejectOverload (output : Nat)
  /-- REJECT_RETRY (R55): 100 ms after an overload, the reject output retries. -/
  | rejectRetry (output : Nat)
  /-- SOS_VALID (R418): A valid SOS assigns the sweep its index, and the lines are written, made dark or lost. -/
  | sosValid (station : Nat) (q ipos : Int)
  /-- SOS_MISSED (R413): No SOS arrives by the end of its window, and the synthesizer coasts or reacquires. -/
  | sosMissed (station : Nat)
  /-- EOS (R420): An EOS is checked against its expected moment. A mismatch loses the sweep's lines. -/
  | eos (station : Nat) (deviation : Option Int)
  /-- LED_PLANE_LATCH (R399): A later sub-strobe plane of an LED line latches and its strobe starts. -/
  | ledPlaneLatch (station plane : Nat)
  /-- BEAM_FAULT (R429): Eight faulty pulses or one overload declare a beam failed, and its lines are reassigned. -/
  | beamFault (station beam : Nat) (kind : BeamFaultKind)
  /-- LASER_INTERLOCK (R432): A laser loop channel opens. All laser drive is removed within 10 µs and an armed engine faults. -/
  | laserInterlock (chan : LoopChan)
  /-- HV_LOOP_OPEN (R520): An HV loop channel opens. All HV drive is removed and an armed engine faults. -/
  | hvLoopOpen (chan : LoopChan)
  /-- INTERLOCK_LOCKOUT (R75): The two channels of a loop disagree for more than 50 ms and the loop locks out. -/
  | interlockLockout (loop : ILoop)
  /-- DECODER_LINE_DONE (R320): A decoder completes a line, or finds a stream error that blanks the rest of the page. -/
  | decoderLineDone (station : Nat) (reads : LineReads)
  /-- DECODER_PAGE_BOUNDARY (R316): A decoder reaches a page boundary and saves its state record, or restores or resyncs it. -/
  | decoderPageBoundary (station : Nat)
  /-- DECODER_PAGE_BEGIN (R317): The decoder begins the next page once the save is complete and the sequencer has started. -/
  | decoderPageBegin (station : Nat)
  /-- FEED_SEEK_FOUND (R314): A seeking decoder finds a valid FIRST band header in the feed. -/
  | feedSeekFound (station : Nat)
  /-- SCRUB_READ (R270): The scrubber reads the next codeword. -/
  | scrubRead (d : SideId) (errs : SymErrs)
  /-- IMC_ERR_POP (R281): A write of 1 to IMC_ERR_CTL.POP discards the oldest error-log entry. -/
  | imcErrPop (d : SideId)
  /-- DMA_ENABLE (R282): A write to DMA_CH_CTL.ENABLE lets the channel fetch jobs. -/
  | dmaEnable (d : SideId) (ch : Nat) (enable : Bool)
  /-- DMA_JOB_FETCH (R282): An idle, enabled channel takes the next job entry from its ring. -/
  | dmaJobFetch (d : SideId) (ch : Nat) (entry : List Byte)
  /-- NOP (R285): A DMA NOP instruction executes. -/
  | dmaNop (d : SideId) (ch : Nat) (raw : List Byte)
  /-- MOVE (R287): A DMA MOVE starts copying LENGTH bytes. -/
  | dmaMove (d : SideId) (ch : Nat) (raw : List Byte) (errs : SymErrs)
  /-- MOVE_COMPLETE (R287): Every byte of a MOVE is written at the destination. -/
  | dmaMoveComplete (d : SideId) (ch : Nat)
  /-- FEED_SPACE (R288): A MOVE blocked on a full station feed resumes when room appears. -/
  | dmaFeedSpace (d : SideId) (ch : Nat)
  /-- LOOP (R289): A DMA LOOP repeats its body or exits. -/
  | dmaLoop (d : SideId) (ch : Nat) (raw : List Byte)
  /-- WAIT (R290): A DMA WAIT starts to wait for pacing tokens. -/
  | dmaWait (d : SideId) (ch : Nat) (raw : List Byte)
  /-- WAIT_DONE (R290): Enough tokens are present, so the WAIT completes and subtracts them. -/
  | dmaWaitDone (d : SideId) (ch : Nat)
  /-- PACE_TIMER (R290): A channel's pace timer period gives it one token. -/
  | dmaPaceTimer (d : SideId) (ch : Nat)
  /-- SIGNAL (R291): A DMA SIGNAL writes, gives a token or raises an event after the earlier moves complete. -/
  | dmaSignal (d : SideId) (ch : Nat) (raw : List Byte)
  /-- JUMP (R292): A DMA JUMP continues elsewhere, optionally rewinding the bases. -/
  | dmaJump (d : SideId) (ch : Nat) (raw : List Byte)
  /-- END (R292): A DMA END ends the job and writes its completion record. -/
  | dmaEnd (d : SideId) (ch : Nat) (raw : List Byte)
  /-- BUS_TIMEOUT (R296): A DMA read gets no completion within 64 µs and the channel stops. -/
  | dmaBusTimeout (d : SideId) (ch : Nat) (addr : Nat)
  /-- HOST_ERROR (R296): A DMA read completes with UR, CA or poisoned status and the channel stops. -/
  | dmaHostError (d : SideId) (ch : Nat) (addr : Nat)
  /-- DMA_DISABLE (R297): A write of 1 to DISABLE stops the channel at once. -/
  | dmaDisable (d : SideId) (ch : Nat)
  /-- DMA_RESUME (R299): A write of 1 to RESUME leaves a fault stop. -/
  | dmaResume (d : SideId) (ch : Nat)
  /-- PANEL_COMPOSE_START (R359): Composition of a panel begins once pool space is free. -/
  | panelComposeStart
  /-- PANEL_READY (R357): Composition of a panel completes, or a field fails. -/
  | panelReady (result : ComposeResult)
  /-- CHECKPOINT_TIMER (R366): 1.000 s after the first uncovered record, a checkpoint is made. -/
  | checkpointTimer
  /-- CHECKPOINT_SIGNED (R366): The security core completes a checkpoint signature, and the held records are published. -/
  | checkpointSigned
  /-- CHECKPOINT_LATE (R375): A checkpoint is not signed within 5 ms, so event 82 is raised and signing is retried. -/
  | checkpointLate
  /-- MOTOR_TICK (R443): An 80 kHz tick samples currents, estimates flux and torque and selects the voltage vector. -/
  | motorTick (ch : Nat) (sample : MotorSample)
  /-- MOTOR_OVERCURRENT (R444): A phase current above the trip level for 1 µs freewheels the bridge. -/
  | motorOvercurrent (ch : Nat)
  /-- TRIP_RETRY (R444): 100 ms after an overcurrent trip, the channel restarts. -/
  | tripRetry (ch : Nat)
  /-- SPEED_RAMP_TICK (R445): Every 100 µs, the speed command ramps toward its target. -/
  | speedRampTick (ch : Nat)
  /-- POLY_START_STEP (R450): A timed polygon start step (CATCH, ALIGN or RAMP) ends, or START_FAIL is declared. -/
  | polyStartStep (ch : Nat)
  /-- BEMF_ZERO_CROSSING (R452): A back-EMF zero crossing is seen, and after 18 agreeing crossings catch-spin is accepted. -/
  | bemfZeroCrossing (ch : Nat) (agrees : Bool) (speed : Int)
  /-- CATCH_SPIN_TIMEOUT (R452): Catch-spin does not acquire within 200 ms. -/
  | catchSpinTimeout (ch : Nat)
  /-- BISS_FRAME (R453): A BiSS-C frame arrives or times out, and four bad frames raise ENC_FAULT. -/
  | bissFrame (ch : Nat) (frame : BissFrame)
  /-- BISS_RETRY (R453): 50 ms after an encoder fault, the channel retries. -/
  | bissRetry (ch : Nat)
  /-- LOCKED_ROTOR (R454): No commutation within LOCK_TIME at high torque declares a locked rotor. -/
  | lockedRotor (ch : Nat)
  /-- SPEED_DEV (R455): Speed deviation persists or clears for 10 ms. -/
  | speedDev (ch : Nat) (on : Bool)
  /-- BUS_STAGE (R459): The motor bus voltage crosses a BRAKE, REGEN_INHIBIT or CLAMP threshold. -/
  | busStage (vbus vin : Nat)
  /-- CHOPPER_FAULT (R460): The brake chopper is found open or shorted after 50 µs. -/
  | chopperFault (short : Bool)
  /-- STEP_INTERVAL_END (R476): A step is issued and the next interval is computed. -/
  | stepIntervalEnd (ch : Nat) (load : Option Nat)
  /-- HOME_EDGE (R480): A filtered home edge latches the home position. -/
  | homeEdge (ch : Nat)
  /-- STP_BRIDGE_FAULT (R482): Overcurrent or open load puts the stepper in FAULT. -/
  | stpBridgeFault (ch : Nat) (overcurrent : Bool)
  /-- HOLD_DELAY_END (R471): HOLD_DELAY after the last step ends and the current ramps to IHOLD. -/
  | holdDelayEnd (ch : Nat)
  /-- GEAR_TICK (R487): Every 1 µs, G is evaluated and gear lag is judged. -/
  | gearTick (ch : Nat)
  /-- LOOP_SAMPLE (R498): A TIMER loop samples and its PID and model run. -/
  | loopSample (loop : Nat) (y : Option Word) (late : Bool)
  /-- LOOP_STATE_SYNC (R508): Every 1.000 ms, the active side sends the loop states to the standby side. -/
  | loopStateSync
  /-- DENSITY_READ (R506): Every 1 ms in the density window, the density sensor is read. -/
  | densityRead (station : Nat) (reading : Option Nat)
  /-- HV_LIMITING (R517): Limiting or compliance begins on an HV output. -/
  | hvLimiting (output : Nat)
  /-- HV_TRIP (R517): Limiting lasts 500 ms and the output trips off. -/
  | hvTrip (output : Nat)
  /-- HV_RESTART (R517): 100 ms after a trip, or 2 ms after an arc, the output starts again. -/
  | hvRestart (output : Nat)
  /-- HV_ARC (R518): An arc is declared and the drive is removed. -/
  | hvArc (output : Nat)
  /-- FUSER_ZERO_CROSSING (R525): At a line crossing, each channel decides whether the coming half-cycle conducts. -/
  | fuserZeroCrossing (line : Nat) (positive good : Bool) (currents : List Nat)
  /-- ZC_LOST (R524): Three crossings are missing or out of range and the line's channels stop firing. -/
  | zcLost (line : Nat)
  /-- FUSER_TEMP_SAMPLE (R526): Every 2 ms, the fuser temperature inputs are measured, and overtemperature and sensor faults are judged. -/
  | fuserTempSample (temps : List Int)
  /-- SENSOR_DISAGREE (R529): Control and supervisor differ for 1 s and the channel faults. -/
  | sensorDisagree (ch : Nat)
  /-- FUSER_OVERCURRENT (R529): A half-cycle above 20 A removes the gate. -/
  | fuserOvercurrent (ch : Nat)
  /-- CUTOUT_OPEN (R530): A thermal cut-out loop opens and every fuser channel is switched off. -/
  | cutoutOpen (loop : Nat)
  /-- POWER_TIMER_EXPIRY (R563): The IDLE, DOZE or HIBERNATE timer expires and entry begins when the conditions hold. -/
  | powerTimerExpiry (timer : SleepState)
  /-- POWER_STATE_REACHED (R567): A sleep state is reached, and a latched wake starts the exit at once. -/
  | powerStateReached
  /-- WAKE (R566): A wake source wakes the module from a sleep state. -/
  | wake (src : WakeSrc)
  /-- MGMT_WAKE_FRAME (R566): A management wake datagram wakes the module and is discarded. -/
  | mgmtWakeFrame (d : SideId) (payload : List Byte)
  /-- PERF_TRANSITION_DONE (R560): The voltage settles and the frequency switches to the target. -/
  | perfTransitionDone
  /-- HOUSEKEEPING_SAMPLE (R569): A housekeeping channel is measured and judged against its levels. -/
  | housekeepingSample (d : SideId) (k : Nat) (value : Option Int)
  /-- FLOOR_TIMER (R571): Every 1.000 s, FLOOR moves one level. -/
  | floorTimer
  /-- SHUT_HOLD_END (R572): SHUT_HOLD ends, undelivered pulses are counted and rail power-down runs. -/
  | shutHoldEnd
  /-- THERMAL_RESTART (R572): After 60 s and a cool base plate, the module restarts with RESET_CAUSE 0x8. -/
  | thermalRestart
  /-- LIG_FRAME (R579): A Ligature frame arrives, or is resent on a bad CRC. -/
  | ligFrame (crcOk : Bool) (lanes : Nat)
  /-- SIGNATURE_RECORD (R582): The partner's signature record for a line is compared with the side's own.
  `low` is the low 32 bits of the line number that the record carries (R581). -/
  | signatureRecord (station : Nat) (line : Int) (low partner : Word) (ownErr partnerErr : Bool)
  /-- SIGNATURE_TIMEOUT (R582): The partner's record misses its 20 µs bound, and the line mismatches. -/
  | signatureTimeout (station : Nat) (line : Int)
  /-- STATION_CHECKPOINT (R583): The standby side compares a station checkpoint with its own values. -/
  | stationCheckpoint (station : Nat) (same : Bool)
  /-- DECISION_TIMEOUT (R584): A needed decision misses its 20 µs bound, and the standby side leaves service. -/
  | decisionTimeout
  /-- SIDE_FAULT (R589): A side self-reports a fault, such as a lockstep mismatch or parity error, and asserts FAULT_N. -/
  | sideFault (d : SideId) (row : SideFaultRow)
  /-- APP_WATCHDOG_EXPIRY (R589): The application firmware watchdog expires after 10 ms, which is a side fault. -/
  | appWatchdogExpiry (d : SideId)
  /-- ARBITER_DETECT (R588): The arbiter detects FAULT_N, or ALIVE silent for 8 µs, and acts by takeover or safe state. -/
  | arbiterDetect (d : SideId)
  /-- TOKEN_MOVE (R591): At the dark moment M, the token moves to the partner. -/
  | tokenMove (mMinusD : Nat)
  /-- FORCE_DARK (R591): At D + 230 µs, stations that are not dark are forced dark. -/
  | forceDark (stations : List Nat)
  /-- EXP_DEADLINE (R593): At M + 2 µs, lines without an EXP become suspect. -/
  | expDeadline (suspect : List (Nat × Int))
  /-- SIDE_LEAVE (R595): The side that lost the token leaves service and restarts or stays DOWN. -/
  | sideLeave
  /-- LIGATURE_DOWN (R599): Ligature is down for 16 µs and the standby side leaves service. -/
  | ligatureDown
  /-- JOIN_UNIT_COPIED (R586): A level-copy step of a joining side completes, up to SHADOW. -/
  | joinUnitCopied
  /-- FAULT_CLASS_DRAIN (R604): A fault class drain timer expires and C falls by 1. -/
  | faultClassDrain (cls : Nat) (side : Nat) (inst : Nat)
  /-- TAMPER (R645): A tamper detection zeroises and restarts the side. -/
  | tamper (d : SideId) (cause : TamperCause)
  /-- TOKEN_AUTH_TIMER (R639): Every 10 minutes with a job armed, the tokens are authenticated. -/
  | tokenAuthTimer
  /-- TOKEN_POLL (R639): Every second with the rails ON, each token place is polled for presence. -/
  | tokenPoll (present : Nat)
  /-- TOKEN_ANSWER (R637): A token answers a transaction, and its count or state is judged. -/
  | tokenAnswer (index : Nat) (answer : TokenAnswer)
  /-- CO_ROLE_TIMEOUT (R621): 600 s without a Crypto Officer command ends the role. -/
  | coRoleTimeout
  /-- CHALLENGE_EXPIRY (R623): A challenge expires 60 s after issue. -/
  | challengeExpiry
  /-- AUTH_LOCK_END (R623): The 60 s SEC_AUTH lockout ends. -/
  | authLockEnd
  /-- INTERLOCK_LOOP_CLOSED (R75): A laser or HV interlock channel closes again; the loop permits again, and after both channels have been open 100 ms a lockout clears; event 100 HV_LOOP_CLOSED is raised for the HV loop. -/
  | interlockLoopClosed (loop : ILoop) (chan : LoopChan) (bothOpenMs : Nat)
  /-- CUTOUT_LOOP_CLOSED (R68): A thermal cut-out loop's IN current returns to 5 to 15 mA and FSR_CUTOUT shows the loop closed, so FUSER_ENABLE may again succeed. -/
  | cutoutLoopClosed (loop : Nat)
  /-- PCIE_LINK_TRAINED (R50): After PERST# release, a cable mate or a link reset, the PCI Express link trains and LINK_STAT.SPEED and WIDTH take their trained values. -/
  | pcieLinkTrained (d : SideId) (speed : Nat) (link : LinkWidth)
  /-- HANDOVER_TIMEOUT (R598): No dark moment occurs within 100 ms of a HANDOVER, which returns ST_TIMEOUT, leaves the token in place and raises event 119 with HANDOVER_TIMEOUT. -/
  | handoverTimeout
  /-- TOKEN_BUS_ERROR (R640): A token transaction gets no answer in time; it is retried up to 3 times 1 ms apart, after which the token's state becomes BUS_ERROR. -/
  | tokenBusError (index : Nat)
  /-- HV_LIMITING_END (R517): The output current or voltage leaves its hardware limit, clearing LIMITING or COMPLIANCE and ending the 500 ms trip timing. -/
  | hvLimitingEnd (output : Nat)
  /-- BRAKE_LIMITED (R458): The brake resistor's thermal model reaches 8 kJ and sets BRAKE_LIMITED, or cools below 6 kJ and clears it. -/
  | brakeLimited (on : Bool)
  /-- DMA_READ_COMPLETION (R287): A completion for a MOVE's read request arrives; beats are written in order, DMA_CH_BYTES advances and HALF_IRQ may fire. -/
  | dmaReadCompletion (d : SideId) (ch : Nat) (data : List Byte) (errs : SymErrs)
  /-- SLEEP_EXIT_DONE (R562): Exit from IDLE or DOZE completes, with the service domain restored and the mailbox working; held doorbells act and the state-change event is raised. -/
  | sleepExitDone
  deriving DecidableEq, Repr

end Sys2Proof
end

