-- ==== Sys2Proof/Machine/Bits.lean ====
section
/-!
DEFINITION. Bit fields, byte order, sign extension, saturation, and the checksums the spec names: CRC-32C (R178, R201,
R580), CRC-16/CCITT-FALSE (R117) and SHA-256 (R364 to R366, R634).
-/

namespace Sys2Proof.Machine

/-- `len` bits of a register word from bit `lo` upward, as a number. -/
def fieldOf (w : Word) (lo len : Nat) : Nat := (w.toNat >>> lo) % 2 ^ len

/-- A register word with `len` bits from bit `lo` upward replaced by the low bits of `v`. -/
def putField (w : Word) (lo len v : Nat) : Word :=
  let mask : Word := BitVec.ofNat 32 ((2 ^ len - 1) <<< lo)
  (w &&& ~~~mask) ||| (BitVec.ofNat 32 ((v % 2 ^ len) <<< lo))

/-- One bit of a register word. -/
def bitOf (w : Word) (i : Nat) : Bool := w.getLsbD i

/-- A register word with one bit set or cleared. -/
def putBit (w : Word) (i : Nat) (b : Bool) : Word := putField w i 1 (if b then 1 else 0)

/-- A truth value as a field value. -/
def b2n (b : Bool) : Nat := if b then 1 else 0

/-- Bit `i` of a mask held as a number. -/
def hasBit (mask i : Nat) : Bool := mask.testBit i

/-- The positions below `n` whose bit is set in a mask. -/
def bitsOf (mask n : Nat) : List Nat := (List.range n).filter (hasBit mask)

/-- A mask with bit `i` set. -/
def setBitN (mask i : Nat) : Nat := mask ||| (1 <<< i)

/-- A mask with bit `i` cleared. -/
def clrBitN (mask i : Nat) : Nat := if hasBit mask i then mask - (1 <<< i) else mask

/-- The signed reading of the low `n` bits of a number. -/
def signedOf (n v : Nat) : Int := (BitVec.ofNat n v).toInt

/-- A signed number as the unsigned value of an `n`-bit field. -/
def unsignedOf (n : Nat) (v : Int) : Nat := (BitVec.ofInt n v).toNat

/-- Saturation at an upper bound. -/
def satAt (bound v : Nat) : Nat := if v ≤ bound then v else bound

/-- A number held between two bounds. -/
def clampNat (lo hi v : Nat) : Nat := if v < lo then lo else if hi < v then hi else v

/-- An integer held between two bounds. -/
def clampInt (lo hi v : Int) : Int := if v < lo then lo else if hi < v then hi else v

/-- The little-endian bytes of a number (R174: "Multi-byte fields are little-endian"). -/
def leBytes : Nat → Nat → List Byte
  | 0, _ => []
  | n + 1, v => BitVec.ofNat 8 v :: leBytes n (v / 256)

/-- The number that little-endian bytes spell. -/
def leNat : List Byte → Nat
  | [] => 0
  | b :: bs => b.toNat + 256 * leNat bs

/-- `len` bytes from offset `off`; bytes past the end read as 0. -/
def bytesAt (bs : List Byte) (off len : Nat) : List Byte :=
  let cut := (bs.drop off).take len
  cut ++ List.replicate (len - cut.length) 0

/-- The little-endian number in `len` bytes at offset `off`. -/
def numAt (bs : List Byte) (off len : Nat) : Nat := leNat (bytesAt bs off len)

/-- The signed little-endian number in `len` bytes at offset `off`. -/
def intAt (bs : List Byte) (off len : Nat) : Int := signedOf (8 * len) (numAt bs off len)

/-- The 32-bit word at offset `off`. -/
def wordAt (bs : List Byte) (off : Nat) : Word := BitVec.ofNat 32 (numAt bs off 4)

/-- The bytes of a register word. -/
def wordBytes (w : Word) : List Byte := leBytes 4 w.toNat

/-- The smallest multiple of `unit` that is at least `v`. -/
def roundUp (unit v : Nat) : Nat := (v + unit - 1) / unit * unit

/-- The quotient rounded up. -/
def ceilDiv (a b : Nat) : Nat := (a + b - 1) / b

/-- Shifts of a reflected CRC. -/
def crcShift (poly : Nat) : Nat → Nat → Nat
  | 0, c => c
  | n + 1, c => crcShift poly n (if c % 2 = 1 then c / 2 ^^^ poly else c / 2)

/-- CRC-32C over bytes: reflected polynomial 0x82F63B78, initial value and final inversion all ones. -/
def crc32c (bs : List Byte) : Word :=
  BitVec.ofNat 32 (bs.foldl (fun c b => crcShift 0x82F63B78 8 (c ^^^ b.toNat)) 0xFFFFFFFF ^^^ 0xFFFFFFFF)

/-- Eight shifts of the CRC of the sequencing bus. -/
def crc16Shift : Nat → BitVec 16 → BitVec 16
  | 0, c => c
  | n + 1, c => crc16Shift n (if c.getLsbD 15 then (c <<< 1) ^^^ 0x1021 else c <<< 1)

/-- CRC-16/CCITT-FALSE (R117: polynomial 0x1021, initial value 0xFFFF). -/
def crc16 (bs : List Byte) : BitVec 16 :=
  bs.foldl (fun c b => crc16Shift 8 (c ^^^ ((b.setWidth 16 : BitVec 16) <<< (8 : Nat)))) 0xFFFF

/-- The integer root: the largest number below `2 ^ n` above `r` in its low `n` bits whose `k`-th power is at most `v`, bit by bit. -/
def rootBits (k v : Nat) : Nat → Nat → Nat
  | 0, r => r
  | n + 1, r => rootBits k v n (if (r + 2 ^ n) ^ k ≤ v then r + 2 ^ n else r)

/-- The first 32 bits of the fractional part of the `k`-th root of a number below 2^24. -/
def rootWord (k p : Nat) : Word := BitVec.ofNat 32 (rootBits k (p * 2 ^ (32 * k)) 44 0)

/-- The primes below a bound. -/
def primesBelow (n : Nat) : List Nat :=
  (List.range n).filter (fun p => decide (2 ≤ p) && (List.range p).all (fun d => decide (d < 2) || p % d != 0))

/-- The round constants of SHA-256 (R620, FIPS 180-4): from the cube roots of the first 64 primes. -/
def shaK : List Word := (primesBelow 312).map (rootWord 3)

/-- The eight working variables of SHA-256. -/
structure ShaState where
  a : Word
  b : Word
  c : Word
  d : Word
  e : Word
  f : Word
  g : Word
  h : Word
  deriving DecidableEq, Repr

/-- The initial hash value of SHA-256: from the square roots of the first eight primes. -/
def shaInit : ShaState :=
  ⟨rootWord 2 2, rootWord 2 3, rootWord 2 5, rootWord 2 7, rootWord 2 11, rootWord 2 13, rootWord 2 17, rootWord 2 19⟩

/-- One round of the compression function. -/
def shaRound (s : ShaState) (kw : Word) : ShaState :=
  let s1 := s.e.rotateRight 6 ^^^ s.e.rotateRight 11 ^^^ s.e.rotateRight 25
  let ch := (s.e &&& s.f) ^^^ (~~~s.e &&& s.g)
  let t1 := s.h + s1 + ch + kw
  let s0 := s.a.rotateRight 2 ^^^ s.a.rotateRight 13 ^^^ s.a.rotateRight 22
  let maj := (s.a &&& s.b) ^^^ (s.a &&& s.c) ^^^ (s.b &&& s.c)
  ⟨t1 + s0 + maj, s.a, s.b, s.c, s.d + t1, s.e, s.f, s.g⟩

/-- The message schedule, newest word first: `n` further words after the first sixteen. -/
def shaSchedule : Nat → List Word → List Word
  | 0, ws => ws
  | n + 1, ws =>
    let at' (i : Nat) : Word := ws.getD i 0
    let w2 := at' 1
    let w15 := at' 14
    let s0 := w15.rotateRight 7 ^^^ w15.rotateRight 18 ^^^ (w15 >>> 3)
    let s1 := w2.rotateRight 17 ^^^ w2.rotateRight 19 ^^^ (w2 >>> 10)
    shaSchedule n ((at' 15 + s0 + at' 6 + s1) :: ws)

/-- The big-endian word in four bytes. -/
def beWord (bs : List Byte) : Word := BitVec.ofNat 32 (bs.foldl (fun v b => v * 256 + b.toNat) 0)

/-- Cut a list into pieces of `k`, at most `n` of them. -/
def chunks {α : Type} (k : Nat) : Nat → List α → List (List α)
  | 0, _ => []
  | n + 1, xs => if xs.isEmpty then [] else xs.take k :: chunks k n (xs.drop k)

/-- One 64-byte block of SHA-256. -/
def shaBlock (s : ShaState) (block : List Byte) : ShaState :=
  let ws := (shaSchedule 48 ((chunks 4 16 block).map beWord).reverse).reverse
  let r := (ws.zip shaK).foldl (fun st p => shaRound st (p.1 + p.2)) s
  ⟨s.a + r.a, s.b + r.b, s.c + r.c, s.d + r.d, s.e + r.e, s.f + r.f, s.g + r.g, s.h + r.h⟩

/-- The big-endian bytes of a number. -/
def beBytes (n v : Nat) : List Byte := (leBytes n v).reverse

/-- SHA-256 of a byte string. -/
def sha256 (bs : List Byte) : List Byte :=
  let zeros := (119 - bs.length % 64) % 64
  let padded := bs ++ [0x80] ++ List.replicate zeros 0 ++ beBytes 8 (8 * bs.length)
  let s := (chunks 64 (padded.length / 64) padded).foldl shaBlock shaInit
  [s.a, s.b, s.c, s.d, s.e, s.f, s.g, s.h].flatMap (fun w => beBytes 4 w.toNat)

end Sys2Proof.Machine
end

