-- ==== Sys2Proof/Machine/Tab.lean ====
section
/-!
DEFINITION. Sorted association lists, the one form in which the state holds sparse data: objects by identifier, registers
by offset, bytes by address. Keys rise strictly; a sparse list also lists no entry that equals what an unlisted key reads
as, so that equal contents are equal data.
-/

namespace Sys2Proof.Machine

/-- A sorted association list with numbers as keys. -/
abbrev Tab (α : Type) := List (Nat × α)

/-- The entry under a key, if there is one. -/
def tabFind {α : Type} : Tab α → Nat → Option α
  | [], _ => none
  | (k, v) :: t, x => if k = x then some v else tabFind t x

/-- The entry under a key, or the given value where there is none. -/
def tabGet {α : Type} (d : α) (t : Tab α) (x : Nat) : α := (tabFind t x).getD d

/-- Insert or replace the entry under a key, keeping the order. -/
def tabPut {α : Type} : Tab α → Nat → α → Tab α
  | [], x, v => [(x, v)]
  | (k, w) :: t, x, v =>
    if x < k then (x, v) :: (k, w) :: t
    else if x = k then (x, v) :: t
    else (k, w) :: tabPut t x v

/-- Remove what lies under a key. -/
def tabErase {α : Type} : Tab α → Nat → Tab α
  | [], _ => []
  | (k, w) :: t, x => if k = x then tabErase t x else (k, w) :: tabErase t x

/-- Change the entry under a key, starting from the given value where there is none. -/
def tabMod {α : Type} (d : α) (t : Tab α) (x : Nat) (f : α → α) : Tab α := tabPut t x (f (tabGet d t x))

/-- Change the entry under a key where there is one. -/
def tabUpd {α : Type} (t : Tab α) (x : Nat) (f : α → α) : Tab α :=
  match tabFind t x with
  | some v => tabPut t x (f v)
  | none => t

/-- The keys in use. -/
def tabKeys {α : Type} (t : Tab α) : List Nat := t.map Prod.fst

/-- The entries, in key order. -/
def tabVals {α : Type} (t : Tab α) : List α := t.map Prod.snd

/-- Whether a key is in use. -/
def tabHas {α : Type} (t : Tab α) (x : Nat) : Bool := (tabFind t x).isSome

/-- The smallest number from `n` upward, among `fuel` candidates, that is not a key. -/
def tabFresh {α : Type} (t : Tab α) : Nat → Nat → Nat
  | 0, n => n
  | fuel + 1, n => if tabHas t n then tabFresh t fuel (n + 1) else n

/-- Apply a change to every entry. -/
def tabMap {α : Type} (f : Nat → α → α) (t : Tab α) : Tab α := t.map (fun p => (p.1, f p.1 p.2))

/-- What a sparse list holds under a key: its entry, or the default of that key. -/
def sparseGet {α : Type} (dflt : Nat → α) (t : Tab α) (x : Nat) : α := tabGet (dflt x) t x

/-- Write a sparse list: an entry equal to its default is removed. -/
def sparsePut {α : Type} [DecidableEq α] (dflt : Nat → α) (t : Tab α) (x : Nat) (v : α) : Tab α :=
  if v = dflt x then tabErase t x else tabPut t x v

/-- Keys rise strictly. -/
def tabSorted {α : Type} : Tab α → Bool
  | [] => true
  | [_] => true
  | (k, _) :: (k', v') :: t => decide (k < k') && tabSorted ((k', v') :: t)

/-- The canonical form of a sparse list: keys rise strictly and no entry equals its default. -/
def sparseWf {α : Type} [DecidableEq α] (dflt : Nat → α) (t : Tab α) : Bool :=
  tabSorted t && t.all (fun p => decide (p.2 ≠ dflt p.1))

end Sys2Proof.Machine
end

