-- ==== Sys2Proof/Machine/Parts.lean ====
section
/-!
DEFINITION. The pieces of the state, as plain data: the sides and their states, the power input and the sequencing bus,
the event router, the rings, the mailbox, jobs and pages, records and the journal, and the station pipelines.
-/

namespace Sys2Proof.Machine

/-- The parts of the family (R2). -/
inductive Part where
  | w9d
  | w9s
  | w7s
  deriving DecidableEq, Repr

/-- The states of a side (R585). -/
inductive SideState where
  | down
  | starting
  | joining
  | shadow
  | active
  | alone
  deriving DecidableEq, Repr

/-- The engine states (R188). -/
inductive EngState where
  | configured
  | armed
  | printing
  | draining
  | faulted
  deriving DecidableEq, Repr

/-- What keeps the module from running: nothing, no input yet, an input-loss shutdown (R107), the shutdown of a long press
and the SOFT_OFF after it (R112, R113), manual reset (R114), a collapse (R109), or a thermal shutdown and the wait after it
(R572). -/
inductive ModPhase where
  | unpowered
  | running
  | inputLoss
  | longPress
  | softOff
  | manualReset
  | collapsed
  | thermalHold
  | thermalWait
  deriving DecidableEq, Repr

/-- One entry of the MRAM log (R201). The packing of ARGS into its 40 bytes is not given, so they stay values. -/
structure LogEntry where
  seq      : Nat
  time     : Nat
  side     : SideId
  severity : Nat
  unit     : Nat
  inst     : Nat
  code     : Nat
  cls      : Nat
  args     : List Int
  deriving DecidableEq, Repr

/-- What leaves the module: entries written into rings and index write-backs at their host addresses (R152, R159), interrupt messages, writes into host memory,
completions, datagrams and bus frames; and what is exposed: the levels of a line that an emitter writes in a sweep with the
edges of its pulses, and the planes of an LED line; and the transactions of consumable tokens (R637). An empty list of levels stands for level 0 on every dot. -/
inductive Out where
  | ringEntry (d : SideId) (ring addr : Nat) (bytes : List Byte)
  | logEntry (d : SideId) (ring addr : Nat) (e : LogEntry)
  | writeBack (d : SideId) (addr : Nat) (word : Word)
  | msix (d : SideId) (vector : Nat)
  | hostWrite (d : SideId) (addr : Nat) (bytes : List Byte)
  | hostRead (d : SideId) (addr len : Nat)
  | completion (d : SideId) (bytes : List Byte) (poisoned : Bool)
  | i2cReply (d : SideId) (bytes : List Byte)
  | udpReply (d : SideId) (bytes : List Byte)
  | busFrame (bytes : List Byte)
  | exposed (station emitter : Nat) (line : Int) (levels : List Nat) (pulses : List (Int × Int)) (drive : Nat)
  | strobe (station : Nat) (line : Int) (plane : Nat) (lanes : List (List Bool)) (ns : Nat)
  | tokenQuery (index : Nat)
  | tokenDecrement (index expect amount : Nat)
  deriving DecidableEq, Repr

/-- A vector's coalescing state (R171): occurrences counted and whether its timer runs. -/
structure VecState where
  count  : Nat
  timing : Bool
  deriving DecidableEq, Repr

/-- The event router of a side (R165 to R171): bit n of `pend` and `mask` is event n. -/
structure Evt where
  pend  : BitVec 128
  mask  : BitVec 128
  count : Tab Nat
  route : Tab Nat
  coal  : Tab Word
  vec   : Tab VecState
  deriving DecidableEq, Repr

/-- One MSI-X table entry (R132). -/
structure MsixEntry where
  addr   : Nat
  data   : Word
  masked : Bool
  deriving DecidableEq, Repr

/-- The MSI-X capability and table of a side (R132, R135). -/
structure Msix where
  enable   : Bool
  funcMask : Bool
  table    : Tab MsixEntry
  pba      : Word
  deriving DecidableEq, Repr

/-- What a ring keeps beside its registers: how often it was enabled (R154), whether it waits for a doorbell after a fetch
error (R157), the next chain position to publish, the published positions the host has not released, the position after the last that the
host released (R136, R368) and after the last that was published at all (R173), and whether publication has stopped on a full ring (R155). -/
structure RingAux where
  epoch   : Nat := 0
  stalled : Bool := false
  pubNext : Nat := 0
  pubs    : List Nat := []
  relNext : Nat := 0
  topNext : Nat := 0
  stopped : Bool := false
  deriving DecidableEq, Repr

/-- A completed command in the tag store (R178). -/
structure TagRec where
  tag    : Nat
  digest : Word
  resp   : List Byte
  deriving DecidableEq, Repr

/-- A command fetched and not answered: its tag, its response ring's enable count at the fetch, its digest, whether it has begun to be
carried out, and whether the active side has given it its place in the order (R137). -/
structure Flight where
  tag      : Nat
  side     : SideId
  via      : Via
  opcode   : Nat
  epoch    : Nat
  digest   : Word
  begun    : Bool
  ordered  : Bool := true
  deriving DecidableEq, Repr

/-- What an unanswered command waits for. -/
inductive AwaitKind where
  | seqUp
  | seqDown
  | jobEnd (job : Nat)
  | jobAbort (job : Nat)
  | stpMove (ch : Nat)
  | stpGear (ch : Nat)
  | stpStop (ch : Nat)
  | calRun (id mask : Nat)
  | planeEncode
  | handover
  deriving DecidableEq, Repr

/-- A command that is answered later. -/
structure Await where
  kind     : AwaitKind
  opcode   : Nat
  msg      : Msg
  deferred : Bool
  deriving DecidableEq, Repr

/-- A deferred command (R193): the gap it needs in microseconds and the stations whose path it uses. -/
structure Deferred where
  opcode   : Nat
  msg      : Msg
  gap      : Nat
  stations : List Nat
  deriving DecidableEq, Repr

/-- A page descriptor (R207) in a job's queue, with the hits it has served. -/
structure PageDesc where
  pageNo  : Nat
  length  : Nat
  compare : Nat
  panels  : Nat
  rep     : Nat
  planes  : List Nat
  tplSet  : Nat
  layout  : Nat
  served  : Nat
  deriving DecidableEq, Repr

/-- A defined job (R205) with its queue and counts (R204). `exposed` holds the page numbers of which a page has committed (R197),
`feedSeq` the FEED_SEQ of the latest accepted feed entry (R349), 0 for none. -/
structure Job where
  stations  : Nat
  dpi600    : Nat
  led       : Nat
  ring      : Nat
  maxRate   : Nat
  encoder   : Nat
  screens   : List Nat
  tplSet    : Nat
  nextPage  : Nat
  queue     : List PageDesc
  pageSeq   : Nat
  limited   : Bool
  triggered : Nat
  committed : Nat
  completed : Nat
  withdrawn : Nat
  good      : Nat
  reject    : Nat
  void      : Nat
  exposed   : List Nat
  feedSeq   : Nat
  deriving DecidableEq, Repr

/-- A value of a counter taken by a panel (R351). -/
structure Taken where
  counter : Nat
  value   : Nat
  epoch   : Nat
  deriving DecidableEq, Repr

/-- A host feed entry (R349). -/
structure FeedEntry where
  seq    : Nat
  serial : Nat
  y      : Nat
  height : Nat
  rejOut : Nat
  items  : List (List Byte)
  area   : List Byte
  deriving DecidableEq, Repr

/-- Where a panel stands in composition (R356 to R361). -/
inductive Compose where
  | none
  | queued
  | composing
  | ready
  | abandoned
  deriving DecidableEq, Repr

/-- A panel of a page in flight, with its OPEN record (R362, R368). `doubt` names the encoder channels whose
SUB_OFFSET_NEXT was frozen while a line of it was exposed (R236). -/
structure Panel where
  index    : Nat
  x        : Nat
  y        : Nat
  height   : Nat
  tpl      : Nat
  rejOut   : Nat
  flags    : Nat
  final    : Bool
  taken    : List Taken
  feed     : Option FeedEntry
  feedMiss : Bool
  compose  : Compose
  missed   : Nat
  failed   : List Nat
  doubt    : Nat
  data     : List (List Byte)
  deriving DecidableEq, Repr

/-- A page's progress on one station: the latched offset (R248), the grid line of its first line once it is placed (R422), how
many of its lines the decoder has produced, how many have been judged for exposure, the next page line to complete, the lines
judged that are blanked or lost, the line from which every line is blanked, and whether it has started and ended. -/
structure StnPage where
  offset    : Int
  grid      : Option Int
  made      : Nat
  judged    : Nat
  next      : Nat
  bad       : List Nat
  blankFrom : Option Nat
  started   : Bool
  ended     : Bool
  deriving DecidableEq, Repr

/-- A page in flight. -/
structure Page where
  job       : Nat
  pageNo    : Nat
  pageSeq   : Nat
  compare   : Nat
  pos       : Int
  time      : Nat
  length    : Nat
  stations  : Nat
  planes    : List Nat
  tplSet    : Nat
  layout    : Nat
  committed : Bool
  skipped   : Bool
  lots      : Tab (List Byte)
  prog      : Tab StnPage
  panels    : List Panel
  deriving DecidableEq, Repr

/-- An entry of the record chain that is not yet released: a final product record, or a checkpoint with its signature once
it is signed (R362, R364). `freed` says that a host has released it, while a record ring of the other side has still to publish it. -/
structure ChainEntry where
  bytes  : List Byte
  ring   : Nat
  isCkpt : Bool
  signed : Bool
  freed  : Bool := false
  deriving DecidableEq, Repr

/-- The record chain and the journal (R364 to R370). -/
structure Records where
  next      : Nat
  prevHash  : List Byte
  lastHead  : List Byte
  entries   : Tab ChainEntry
  ckptSeq   : Nat
  uncovered : Nat
  ckptTimer : Bool
  journalled : Nat
  lastRec   : Nat
  failed    : Bool
  warned    : Bool
  deriving DecidableEq, Repr

/-- A serial counter (R351): its values are held in MRAM. -/
structure Counter where
  next      : Nat
  consumed  : Option Nat
  committed : Option Nat
  epoch     : Nat
  limit     : Option Nat
  exhausted : Bool
  low       : Bool
  deriving DecidableEq, Repr

/-- A region of image memory (R209). -/
structure Region where
  off   : Nat
  bytes : Nat
  deriving DecidableEq, Repr

/-- A plane (R304 to R306, R327): raw contone with tags, or a codec stream. -/
structure Plane where
  region : Nat
  off    : Nat
  codec  : Bool
  width  : Nat
  lines  : Nat
  bytes  : Nat
  deriving DecidableEq, Repr

/-- A template set as loaded (R336 to R341): its bytes, whether it is damaged (R361), and its cost per template. -/
structure TplSet where
  bytes   : List Byte
  damaged : Bool
  deriving DecidableEq, Repr

/-- A PLANE_ENCODE that runs or waits (R322 to R326): the command's tag, the raw plane, the destination region with the offsets
where the output starts and where the region ends, and the value of CDC_ENC_CFG latched at its start (R328). -/
structure EncodeJob where
  tag    : Nat
  src    : Plane
  region : Nat
  start  : Nat
  limit  : Nat
  cfg    : Word
  deriving DecidableEq, Repr

/-- The reset output of R115: its level, the stretch that runs, and whether that stretch is a pulse. -/
structure RstOut where
  low     : Bool
  stretch : Bool
  deriving DecidableEq, Repr

/-- The power input, the buttons, the straps as they stand and as they were read last (R70), and the reset outputs. `alwaysOn` says that the always-on domain has kept its
supply; `afterHold` that the hold-off has ended and the restart waits for power-good; `heads` is the mask of stations whose
HEAD_PRES_N reads high. -/
structure Power where
  phase      : ModPhase
  feedX1     : Bool
  feedX2     : Bool
  inputGood  : Bool
  alwaysOn   : Bool
  holdoff    : Bool
  afterHold  : Bool
  mrLow      : Bool
  grace      : Bool
  rstHost    : RstOut
  rstHead    : RstOut
  straps     : Straps
  latched    : Straps
  heads      : Nat
  deriving DecidableEq, Repr

/-- The SEQ block's working state beside its registers: whether the step in progress has its rails in window, the rail whose
rise timed out in this power-up, the rails that may have missed the same timeout, the stations being switched off by themselves with the step each is at (R104), the stations
switched off since the latest power-up began, and the values that SEQ_PERSIST holds in MRAM. -/
structure Seq where
  inWindow  : Bool
  upFailed  : Option Nat
  late      : List Nat
  stnDown   : Tab Nat
  stnOff    : Nat
  saved     : Word
  deriving DecidableEq, Repr

/-- The sequencing bus (R116 to R125). As a master: the frame counter, the slave polled last, successive unanswered polls,
missing slaves, serials and step counts reported, and the slaves that are done with the group step. As a slave: the last
heartbeat heard, whether a master is heard, whether the module has heard it again and not answered since (R122), the requests and the
rail fault to report, and whether a short press of its own has asked the master for the power-down (R111, R121). `grouped` says that the sequence
in progress steps with the group, `groupStep` is its step, and `stepDone` that the module's own step is done. -/
structure Bus where
  seqNo      : Nat
  polled     : Nat
  unanswered : Tab Nat
  missing    : Nat
  serials    : Tab Word
  slaveDone  : Nat
  slaveSteps : Tab Nat
  stepDone   : Bool
  groupStep  : Nat
  grouped    : Bool
  lastHb     : Option (Nat × Nat)
  heard      : Bool
  returning  : Bool
  reqUp      : Bool
  reqDown    : Bool
  railFault  : Bool
  offAsked   : Bool
  deriving DecidableEq, Repr

/-- The interlock loops and thermal cut-outs (R68, R73 to R75). -/
structure Interlocks where
  laserA  : Bool
  laserB  : Bool
  laserLock : Bool
  hvA     : Bool
  hvB     : Bool
  hvLock  : Bool
  cut0    : Bool
  cut1    : Bool
  laserEnabled : Bool
  deriving DecidableEq, Repr

/-- The boot record of a side, in MRAM (R635), and whether each bank has passed FW_VERIFY since its last
FW_DATA. -/
structure BootRec where
  preferB  : Bool
  trial    : Bool
  tried    : Bool
  goodA    : Bool
  goodB    : Bool
  verA     : Bool
  verB     : Bool
  deriving DecidableEq, Repr

/-- A fault class instance (R604). -/
structure FaultInst where
  count   : Nat
  lasting : Bool
  deriving DecidableEq, Repr

/-- A fault class's settings (R605, R606). -/
structure FaultCfg where
  window : Nat
  thresh : Nat
  deriving DecidableEq, Repr

end Sys2Proof.Machine
end

