-- ==== Sys2Proof/Machine/PartsDrive.lean ====
section
/-!
DEFINITION. The pieces of the state that move the engine: motor channels, the motor bus, stepper channels.
-/

namespace Sys2Proof.Machine

/-- A motor channel's working state beside its registers (R442 to R456). `cmd` is the command after the ramp in 1/10 000 rpm;
`saved` is the mode and value that a job took over, with whether the channel was off (R447). `spin` says that catch-spin has
seen a crossing, `quietFrom` that it waits for 200 ms without one (R452). -/
structure Motor where
  value     : Int
  saved     : Option (Nat × Int × Bool)
  dPsi      : Int
  dT        : Int
  legs      : Nat
  confLow   : Nat
  confHigh  : Nat
  spin      : Bool
  crossings : Nat
  seen      : Bool
  quiet     : Bool
  at1500    : Bool
  tripped   : Bool
  encWait   : Bool
  clamped   : Bool
  stopping  : Bool
  bissBad   : Nat
  raw       : Nat
  history   : List Nat
  cmd       : Int
  throttled : Bool
  hot       : Bool
  deriving DecidableEq, Repr

/-- A motor channel that has not run. -/
def Motor.init : Motor :=
  { value := 0, saved := none, dPsi := 0, dT := 0, legs := 0, confLow := 0, confHigh := 0, spin := false, crossings := 0,
    seen := false, quiet := false, at1500 := false, tripped := false, encWait := false, clamped := false,
    stopping := false, bissBad := 0, raw := 0, history := [], cmd := 0, throttled := false, hot := false }

/-- An armed gear change of a stepper (R486). -/
structure GearArm where
  master  : Nat
  engage  : Bool
  forward : Bool
  num     : Int
  den     : Nat
  armPos  : Int
  deriving DecidableEq, Repr

/-- A stepper channel's working state beside its registers (R470 to R487). Speeds and accelerations are held in 2^-16
microsteps/s and microsteps/s², the interval in 2^-16 ticks; `dir` is the direction of motion. `homing` holds the latched home
position while the axis brakes, `num0` the NUM of the last STP_GEAR, and `m0`, `g0`, `high` are M0, G0 and the highest master
position of R485. -/
structure Stepper where
  pos      : Int
  target   : Int
  speed    : Nat
  acc      : Nat
  jerk     : Nat
  home     : Bool
  v        : Int
  a        : Int
  ivl      : Int
  dir      : Int
  adjusted : Bool
  homing   : Option Int
  stallRun : Nat
  gear     : Option GearArm
  pending  : Option GearArm
  num0     : Int
  m0       : Int
  g0       : Int
  high     : Int
  deriving DecidableEq, Repr

/-- A stepper channel that has not moved. -/
def Stepper.init : Stepper :=
  { pos := 0, target := 0, speed := 0, acc := 0, jerk := 0, home := false, v := 0, a := 0, ivl := 0, dir := 1,
    adjusted := false, homing := none, stallRun := 0, gear := none, pending := none, num0 := 0, m0 := 0, g0 := 0,
    high := 0 }

/-- A control loop (R494 to R503): its descriptor, its state, the values of R498 and R502 as binary32 words, and its tallies.
`inner` counts the samples of the inner loop, `ref` is the reference of a position loop in 1/384 000 000 000 turn (R494),
`loaded` says that a descriptor loaded into the running loop has not sampled yet, `spGiven` that LOOP_SETPOINT has been
given. -/
structure Loop where
  desc     : List Byte
  st       : Nat
  sat      : Bool
  held     : Bool
  disagree : Bool
  sp       : Word
  r        : Word
  y        : Word
  u        : Word
  i        : Word
  d        : Word
  m        : Word
  w        : Word
  bad      : Nat
  good     : Nat
  samples  : Nat
  inner    : Nat
  ref      : Int
  loaded   : Bool
  spGiven  : Bool
  deriving DecidableEq, Repr

/-- A fuser channel's working state beside its registers (R525 to R529). -/
structure FuserCh where
  acc      : Word
  bal      : Int
  openRun  : Nat
  overRun  : Nat
  current  : Nat
  hot      : Bool
  deriving DecidableEq, Repr

/-- A fuser channel that has not fired. -/
def FuserCh.init : FuserCh := { acc := 0, bal := 0, openRun := 0, overRun := 0, current := 0, hot := false }

/-- A density window of a page on a station (R506): its bounds in position units, the readings so far, and whether a blanked
or lost line, or a derated one, spoils it. -/
structure DensWin where
  station : Nat
  page    : Nat
  lo      : Int
  hi      : Int
  sum     : Nat
  count   : Nat
  spoiled : Bool
  deriving DecidableEq, Repr

/-- The drives and the process outputs of the module: motor channels, the entry threshold of REGEN_INHIBIT in force (R459), steppers, control loops, fuser channels, good crossings per line, successive bad readings per
temperature input, and the density windows open. -/
structure Drives where
  motors  : Tab Motor
  regenAt : Nat
  steps   : Tab Stepper
  loops   : Tab Loop
  fusers  : Tab FuserCh
  zcGood  : Tab Nat
  tempBad : Tab Nat
  dens    : List DensWin
  deriving DecidableEq, Repr

/-- The drives at a start. -/
def Drives.init : Drives :=
  { motors := [], regenAt := 0, steps := [], loops := [], fusers := [], zcGood := [], tempBad := [], dens := [] }

end Sys2Proof.Machine
end

