-- ==== Sys2Proof/Machine/PartsLine.lean ====
section
/-!
DEFINITION. The pieces of the state that follow the web: encoder channels, capture inputs, reject outputs, and the
stations' screening, scan and line state.
-/

namespace Sys2Proof.Machine

/-- An encoder channel's working state beside its registers (R221 to R239). `count` is ENC_COUNT; the tracked position is
computed from it (R224). `ipos` and `tally` are the PLL's (R225), `lostAt` the time at which it last lost lock; `indexBad` says
that an index mismatch has not been followed by a pulse that passes (R235); `subPend` that a declared fault waits for the next
10 µs tick (R236); `highest` and `reversed` serve R239. -/
structure EncState where
  count     : Int
  subOffset : Int
  subNext   : Int
  indexBad  : Bool
  forward   : Bool
  refPos    : Int
  ipos      : Int
  tally     : Nat
  highest   : Int
  held      : Option Int
  mainLatch : Int
  backLatch : Int
  lostAt    : Option Nat
  subPend   : Bool
  reversed  : Bool
  deriving DecidableEq, Repr

/-- A capture input (R252): its filtered level, an edge that is still in its filter time with the position that it latched (none where the
FIFO was full as it arrived), the FIFO. -/
structure CapState where
  level   : Bool
  pend    : Option (Bool × Option Int)
  fifo    : List Int
  deriving DecidableEq, Repr

/-- A reject output (R253 to R258): the fire positions queued, each with the encoder channel of its job; how many pulses overlap
now; whether a full queue holds it on; whether it is switched off by overload. -/
structure RejState where
  queue    : List (Nat × Int)
  running  : Nat
  heldOn   : Bool
  overload : Bool
  deriving DecidableEq, Repr

/-- A line held between screening and exposure (R28): the page it belongs to, its number in the page at the station's
resolution, its levels at 1200 dpi, whether it is blanked, and whether it was screened with derate. -/
structure BufLine where
  page   : Nat
  y      : Nat
  levels : List Nat
  blank  : Bool
  derate : Bool
  deriving DecidableEq, Repr

/-- A substitution of a spare for a beam (R392 to R396): the spare's first grid line, its last one when the beam has returned,
and whether the beam was declared failed. -/
structure Sub where
  spare  : Nat
  beam   : Nat
  first  : Int
  last   : Option Int
  failed : Bool
  deriving DecidableEq, Repr

/-- A run of blanked or lost lines from one cause (R405): runs raise their event once. -/
structure FaultRun where
  unit : Nat
  code : Nat
  deriving DecidableEq, Repr

/-- A station (chapters on screening and on pixel clocks): the screening set copied at JOB_ARM, its curve banks and ramp
(R380, R381), the synthesizer's tallies (R414 to R416), the sweep index and grid origin (R417, R418), the LED line in progress
(R399), the derate in force (R402), the substitutions of spares and the sweeps at which beams failed (R393). `sweep` is the
lowest sweep index that is neither written nor lost, `sweepOpen` says that the sweep before it is being written, `lambda` is
the line phase in 1/64 line while LINE_FROM_SWEEP is set, `lastLine` the last grid line of the page that ended last. `seen` says
that an SOS has been valid since JOB_ARM; `failedAt` and `outAt` hold the sweep at which a beam failed or was taken out. -/
structure Station where
  job        : Nat
  set        : List Byte
  trc        : List Nat
  trcShadow  : Option (List Nat)
  trcQueued  : Option (List Nat)
  rampLeft   : Nat
  rampLen    : Nat
  goodRun    : Nat
  badRun     : Nat
  missedRun  : Nat
  idTerms    : List Int
  idTries    : Nat
  checkTerms : List Int
  sweep      : Int
  sweepInit  : Bool
  sweepOpen  : Bool
  grid       : Nat
  phaseRun   : Nat
  lambda     : Int
  run        : Option FaultRun
  derate     : Bool
  dark       : Bool
  ledLine    : Option Int
  ledPlane   : Nat
  subs       : List Sub
  failedAt   : Tab Int
  outAt      : Tab Int
  seen       : Bool
  buffer     : List BufLine
  lastLine   : Option Int
  lastPage   : Nat
  firstLines : Nat
  spareFail  : Nat
  gapRun     : Option (Nat × Nat)
  deriving DecidableEq, Repr

/-- A station that is in no job. -/
def Station.idle : Station :=
  { job := 0, set := [], trc := [], trcShadow := none, trcQueued := none, rampLeft := 0, rampLen := 0, goodRun := 0,
    badRun := 0, missedRun := 0, idTerms := [], idTries := 0, checkTerms := [], sweep := 0, sweepInit := false,
    sweepOpen := false, grid := 0, phaseRun := 0, lambda := 0, run := none, derate := false, dark := false, ledLine := none,
    ledPlane := 0, subs := [], failedAt := [], outAt := [], seen := false, buffer := [], lastLine := none, lastPage := 0, firstLines := 0,
    spareFail := 0, gapRun := none }

/-- An encoder channel at the start of a side (R221). -/
def EncState.init : EncState :=
  { count := 0, subOffset := 0, subNext := 0, indexBad := false, forward := false, refPos := 0, ipos := 0, tally := 0,
    highest := 0, held := none, mainLatch := 0, backLatch := 0, lostAt := none, subPend := false, reversed := false }

/-- A capture input with nothing held. -/
def CapState.init : CapState := { level := false, pend := none, fifo := [] }

/-- A reject output with nothing queued. -/
def RejState.init : RejState := { queue := [], running := 0, heldOn := false, overload := false }

end Sys2Proof.Machine
end

