-- ==== Sys2Proof/Machine/Codec.lean ====
section
/-!
DEFINITION. The Waide Raster Codec (R304 to R313, R323, R324): raw lines, band headers, tokens and what they produce, and the
encoder's fixed algorithm. A dot is its value and its object tag.
-/

namespace Sys2Proof.Machine

/-- A dot: contone value and object tag. -/
abbrev Dot := Byte × Nat

/-! ### Raw lines (R304) -/

/-- Tags packed four to a byte. -/
def tagAt (tags : List Byte) (x : Nat) : Nat := ((tags.getD (x / 4) 0).toNat >>> (2 * (x % 4))) % 4

/-- The dots of a raw line: value bytes, then tag bytes where the layout has them. -/
def rawLine (width : Nat) (bytes : List Byte) : List Dot :=
  let tags := bytes.drop width
  (bytes.take width).mapIdx (fun x v => (v, tagAt tags x))

/-! ### Band headers (R307) -/

/-- What a band header says. -/
structure Band where
  reset : Bool
  first : Bool
  lines : Nat
  no    : Nat
  width : Nat
  tag   : Nat
  bytes : Nat
  deriving DecidableEq, Repr

/-- Read the fields of a header. -/
def bandOf (h : List Byte) : Band :=
  { reset := hasBit (numAt h 1 1) 0, first := hasBit (numAt h 1 1) 1, lines := numAt h 2 2, no := numAt h 4 4,
    width := numAt h 8 4, tag := numAt h 12 1, bytes := numAt h 16 4 }

/-- Whether a header's CRC, reserved fields, LINES and TAG_INIT are right (R313, CODEC_BAD_HEADER). -/
def bandSound (h : List Byte) : Bool :=
  let b := bandOf h
  wordAt h 28 == crc32c (h.take 28) && decide (numAt h 1 1 < 4) && numAt h 13 3 == 0 && numAt h 20 8 == 0 &&
    decide (1 ≤ b.lines ∧ b.lines ≤ 1024) && decide (b.tag ≤ 3)

/-- Whether bytes begin a header that a seek takes: MARK, FIRST and a correct HDR_CRC (R314). -/
def seekHit (bs : List Byte) : Bool :=
  decide (32 ≤ bs.length) && numAt bs 0 1 == 0xF8 && hasBit (numAt bs 1 1) 1 && wordAt bs 28 == crc32c (bs.take 28)

/-- Discard bytes until a header that a seek takes begins, or one that may still turn out to be such a header (R314). -/
def seekDrop : List Byte → List Byte
  | [] => []
  | b :: bs => if b = 0xF8 && (seekHit (b :: bs) || decide (bs.length < 31)) then b :: bs else seekDrop bs

/-! ### Tokens (R308, R309) -/

/-- A token, read. -/
inductive Token where
  | lit (vals : List Byte)
  | fill (n : Nat) (v : Byte)
  | prev (n : Nat)
  | copy (n d : Nat)
  | tag (t : Nat)
  | raw (t : Nat) (vals : List Byte)
  | bad
  deriving DecidableEq, Repr

/-- The count of a token and the bytes up to the end of its count field, where they have all arrived. -/
def tokenCount (bias : Nat) (bs : List Byte) : Option (Nat × Nat) :=
  let c := numAt bs 0 1 % 32
  if c < 30 then some (bias + c, 1)
  else if c = 30 then (if 2 ≤ bs.length then some (bias + 30 + numAt bs 1 1, 2) else none)
  else if 3 ≤ bs.length then some (bias + 286 + numAt bs 1 2, 3) else none

/-- The next token and its bytes; none where bytes are missing. -/
def readToken (bs : List Byte) : Option (Token × Nat) :=
  match bs with
  | [] => none
  | lead :: _ =>
    let l := lead.toNat
    if l < 0x20 then
      match tokenCount 1 bs with
      | some (n, k) => if k + n ≤ bs.length then some (.lit ((bs.drop k).take n), k + n) else none
      | none => none
    else if l < 0x40 then
      match tokenCount 3 bs with
      | some (n, k) => if k + 1 ≤ bs.length then some (.fill n (bs.getD k 0), k + 1) else none
      | none => none
    else if l < 0x60 then
      match tokenCount 1 bs with
      | some (n, k) => some (.prev n, k)
      | none => none
    else if l < 0x80 then
      match tokenCount 3 bs with
      | some (n, k) => if k + 2 ≤ bs.length then some (.copy n (numAt bs k 2 + 1), k + 2) else none
      | none => none
    else if 0xE0 ≤ l ∧ l < 0xE4 then some (.tag (l % 4), 1)
    else if 0xE4 ≤ l ∧ l < 0xE8 then
      if 3 ≤ bs.length then
        let n := numAt bs 1 2 + 1
        if 3 + n ≤ bs.length then some (.raw (l % 4) ((bs.drop 3).take n), 3 + n) else none
      else none
    else some (.bad, 1)

/-! ### What a decoder carries (R310, R311) -/

/-- The decoding state: the current tag, the history (newest value first) with its fill, the dots produced since the last
RESET, the previous line, and the dots of the line in progress, newest first. -/
structure CodecSt where
  tag  : Nat
  hist : List Byte
  fill : Nat
  made : Nat
  prev : List Dot
  part : List Dot
  deriving DecidableEq, Repr

/-- The state at JOB_ARM (R317 step 6). -/
def CodecSt.init : CodecSt := { tag := 0, hist := [], fill := 0, made := 0, prev := [], part := [] }

/-- Dots join the line and the history. -/
def CodecSt.push (s : CodecSt) (dots : List Dot) : CodecSt :=
  let n := dots.length
  { s with hist := ((dots.map Prod.fst).reverse ++ s.hist).take 65536, fill := min 65536 (s.fill + n), made := s.made + n
           part := dots.reverse ++ s.part }

/-- The values that a MATCH of `n` dots at distance `d` copies, one dot at a time. -/
def copyVals (hist : List Byte) (n d : Nat) : List Byte :=
  let pat := (hist.take d).reverse
  (List.range n).map (fun i => pat.getD (i % d) 0)

/-- A token acts on a line of a width, or is a stream error of R313. -/
def CodecSt.token (s : CodecSt) (width : Nat) (t : Token) : Except Nat CodecSt :=
  let x := s.part.length
  let fits (n : Nat) : Bool := decide (x + n ≤ width)
  match t with
  | .bad => .error 1
  | .tag g => .ok { s with tag := g }
  | .lit vs => if fits vs.length then .ok (s.push (vs.map (fun v => (v, s.tag)))) else .error 3
  | .fill n v => if fits n then .ok (s.push (List.replicate n (v, s.tag))) else .error 3
  | .prev n =>
    if fits n then .ok (s.push ((List.range n).map (fun i => s.prev.getD (x + i) (0, 0)))) else .error 3
  | .copy n d =>
    if !fits n then .error 3
    else if s.fill < d then .error 4
    else .ok (s.push ((copyVals s.hist n d).map (fun v => (v, s.tag))))
  | .raw g vs => if fits vs.length then .ok (({ s with tag := g }).push (vs.map (fun v => (v, g)))) else .error 3

/-- RESET (R307). -/
def CodecSt.reset (s : CodecSt) (width : Nat) : CodecSt :=
  { s with hist := [], fill := 0, made := 0, prev := List.replicate width (0, 0), part := [] }

/-- A line that holds all its dots becomes the previous line. -/
def CodecSt.endLine (s : CodecSt) : CodecSt := { s with prev := s.part.reverse, part := [] }

/-- What a run of the decoder over the bytes at hand comes to: a complete line, a stream error, or no more bytes. -/
inductive LineEnd where
  | line
  | error (code : Nat)
  | starved
  deriving DecidableEq, Repr

/-- Decode tokens up to the end of a line: the state, the bytes consumed, and how it ended. An error leaves its token. -/
def decodeLine (width : Nat) : Nat → CodecSt → List Byte → Nat → CodecSt × Nat × LineEnd
  | 0, s, _, used => (s, used, .starved)
  | fuel + 1, s, bs, used =>
    if s.part.length = width then (s, used, .line)
    else
      match readToken bs with
      | none => (s, used, .starved)
      | some (t, k) =>
        match s.token width t with
        | .error c => (s, used, .error c)
        | .ok s' => decodeLine width fuel s' (bs.drop k) (used + k)

/-! ### The encoder (R323, R324) -/

/-- A lead byte with its count field, in the shortest form of R309. -/
def countBytes (lead bias n : Nat) : List Byte :=
  let c := n - bias
  if c < 30 then leBytes 1 (lead + c)
  else if c < 286 then leBytes 1 (lead + 30) ++ leBytes 1 (c - 30)
  else leBytes 1 (lead + 31) ++ leBytes 2 (c - 286)

/-- The pending literals, oldest last, as LIT tokens of at most 65 822 values. -/
def flushLit (lits : List Byte) : List Byte :=
  (chunks 65822 (lits.length / 65822 + 1) lits.reverse).flatMap (fun vs => countBytes 0x00 1 vs.length ++ vs)

/-- How many leading dots agree with another line in value and tag. -/
def runSame : List Dot → List Dot → Nat
  | a :: as, b :: bs => if a = b then runSame as bs + 1 else 0
  | _, _ => 0

/-- How many leading dots carry a tag and agree with a list of values. -/
def runVals (tag : Nat) : List Dot → List Byte → Nat
  | a :: as, v :: vs => if a.2 = tag ∧ a.1 = v then runVals tag as vs + 1 else 0
  | _, _ => 0

/-- How many leading dots carry a tag and one value. -/
def runOne (tag : Nat) (v : Byte) : List Dot → Nat
  | [] => 0
  | a :: as => if a.2 = tag ∧ a.1 = v then runOne tag v as + 1 else 0

/-- The hash of four values (R323). -/
def encHash (v : List Byte) : Nat := (leNat (v.take 4) * 0x9E3779B1) % 2 ^ 32 / 2 ^ 20

/-- The encoder's state: current tag, dots since the last RESET, hash table, history (newest first) and previous line. -/
structure EncSt where
  cur  : Nat
  pos  : Nat
  tab  : Tab Nat
  past : List Byte
  prev : List Dot
  deriving DecidableEq, Repr

/-- Code the rest of a line: `above` is the rest of the previous line, `lits` the pending literals, newest first. -/
def encodeDots : Nat → EncSt → List Dot → List Dot → List Byte → EncSt × List Byte
  | 0, s, _, _, lits => (s, flushLit lits)
  | _ + 1, s, [], _, lits => (s, flushLit lits)
  | fuel + 1, s, a :: rest, above, lits =>
    let dots := a :: rest
    let tagOut := if a.2 = s.cur then [] else flushLit lits ++ leBytes 1 (0xE0 + a.2)
    let lits1 := if a.2 = s.cur then lits else []
    let s1 := { s with cur := a.2 }
    let p := min 65822 (runSame dots above)
    let f := min 65824 (runOne s1.cur a.1 dots)
    let hashed := decide (4 ≤ dots.length)
    let h := encHash (dots.map Prod.fst)
    let found := if hashed then tabFind s1.tab h else none
    let m := match found with
      | some c =>
        let d := s1.pos - c
        if d ≤ 65536 ∧ d ≤ min s1.pos 65536 then
          min 65824 (runVals s1.cur dots ((s1.past.take d).reverse ++ dots.map Prod.fst))
        else 0
      | none => 0
    let dist := match found with
      | some c => s1.pos - c
      | none => 0
    let s2 := if hashed then { s1 with tab := tabPut s1.tab h s1.pos } else s1
    let best := max p (max f m)
    let step (n : Nat) : EncSt :=
      { s2 with pos := s2.pos + n, past := (((dots.take n).map Prod.fst).reverse ++ s2.past).take 65536 }
    if 4 ≤ best then
      let tok := if p = best then countBytes 0x40 1 p
        else if f = best then countBytes 0x20 3 f ++ [a.1]
        else countBytes 0x60 3 m ++ leBytes 2 (dist - 1)
      let r := encodeDots fuel (step best) (dots.drop best) (above.drop best) []
      (r.1, tagOut ++ flushLit lits1 ++ tok ++ r.2)
    else
      let r := encodeDots fuel (step 1) rest (above.drop 1) (a.1 :: lits1)
      (r.1, tagOut ++ r.2)

/-- The runs of equal tags of a line: tag and values. -/
def tagRuns : List Dot → List (Nat × List Byte)
  | [] => []
  | a :: rest =>
    match tagRuns rest with
    | (g, vs) :: t => if g = a.2 then (g, a.1 :: vs) :: t else (a.2, [a.1]) :: (g, vs) :: t
    | [] => [(a.2, [a.1])]

/-- One line: its tokens, or RAW tokens where those take more (R323). The hash table keeps the entries either way. -/
def encodeLine (s : EncSt) (line : List Dot) : EncSt × List Byte :=
  let prev := s.prev ++ List.replicate (line.length - s.prev.length) (0, 0)
  let r := encodeDots (line.length + 1) s line prev []
  let runs := tagRuns line
  let raw := runs.flatMap (fun g => leBytes 1 (0xE4 + g.1) ++ leBytes 2 (g.2.length - 1) ++ g.2)
  let cur := ((line.getLast?).map Prod.snd).getD s.cur
  if line.length + 3 * runs.length < r.2.length then ({ r.1 with cur := cur, prev := line }, raw)
  else ({ r.1 with prev := line }, r.2)

/-- A band header's bytes. -/
def bandBytes (flags lines no width tag bytes : Nat) : List Byte :=
  let h := leBytes 1 0xF8 ++ leBytes 1 flags ++ leBytes 2 lines ++ leBytes 4 no ++ leBytes 4 width ++ leBytes 1 tag ++
    leBytes 3 0 ++ leBytes 4 bytes ++ leBytes 8 0
  h ++ wordBytes (crc32c h)

/-- The lines of a band, coded one after another. -/
def encodeLines (s : EncSt) (lines : List (List Dot)) : EncSt × List Byte :=
  lines.foldl (fun r l => let q := encodeLine r.1 l; (q.1, r.2 ++ q.2)) (s, [])

/-- The bands of a plane from band number `no` on (R324). -/
def encodeBands (width bandLines resetEvery : Nat) : Nat → Nat → EncSt → List (List Dot) → List Byte
  | 0, _, _, _ => []
  | fuel + 1, no, s, lines =>
    if lines.isEmpty then []
    else
      let band := lines.take bandLines
      let reset := no == 0 || (resetEvery != 0 && no % resetEvery == 0)
      let tag := ((band.head?).bind (fun l => (l.head?).map Prod.snd)).getD 0
      let s1 : EncSt := if reset then { cur := tag, pos := 0, tab := [], past := [], prev := [] } else { s with cur := tag }
      let r := encodeLines s1 band
      let flags := (if no = 0 then 2 else 0) + b2n reset
      bandBytes flags band.length no width tag r.2.length ++ r.2 ++
        encodeBands width bandLines resetEvery fuel (no + 1) r.1 (lines.drop bandLines)

/-- A codec stream of a raw plane under CDC_ENC_CFG (R322, R330). -/
def encodePlane (cfg : Word) (width : Nat) (lines : List (List Dot)) : List Byte :=
  encodeBands width (clampNat 1 1024 (fieldOf cfg 20 12)) (fieldOf cfg 16 4) (lines.length + 1) 0
    { cur := 0, pos := 0, tab := [], past := [], prev := [] } lines ++ [0xFF]

end Sys2Proof.Machine
end

