-- ==== Sys2Proof/Machine/PartsMem.lean ====
section
/-!
DEFINITION. The pieces of the state around image memory: the memory of a side with the latent symbol errors of its devices,
the controller's tables and error log, the DMA channels, the station feeds and the decoders.
-/

namespace Sys2Proof.Machine

/-- The image memory of a side (R264): the bytes that are not 0, by offset, and the symbols its devices would return wrong,
by codeword (R266, R671). An unlisted offset reads 0: slice initialisation writes zeros (R81). -/
structure Image where
  cells : List Host.Cell
  errs  : Tab (List (Nat × Byte))
  deriving DecidableEq, Repr

/-- A tracked codeword of class MEM_CODEWORD (R271, R272): the codeword, the devices corrected last, and its age. -/
structure CeEntry where
  cw   : Nat
  devs : Nat
  age  : Nat
  deriving DecidableEq, Repr

/-- An entry of the error log FIFO (R279, R280). -/
structure ErrEntry where
  addr    : Nat
  uncorr  : Bool
  source  : Nat
  devices : Nat
  symbols : Nat
  inst    : Nat
  deriving DecidableEq, Repr

/-- The controller of a side: retired devices and bad units are held in MRAM (R273). -/
structure Imc where
  retired : Tab Nat
  bad     : List Nat
  tracked : Tab CeEntry
  nextAge : Nat
  log     : List ErrEntry
  scrub   : Nat
  deriving DecidableEq, Repr

/-- The states of a DMA channel (R303). -/
inductive DmaState where
  | idle
  | running
  | waiting
  | blocked
  | stopped
  deriving DecidableEq, Repr

/-- A MOVE in progress (R286, R287): `pending` are the bytes read and not yet written, `asked` how many bytes of the source have been
requested, `bad` the address of a read that failed after them, with the cause of the stop that is due. -/
structure DmaMove where
  src      : Nat
  dst      : Nat
  srcImage : Bool
  dstSpace : Nat
  length   : Nat
  halfIrq  : Bool
  fullIrq  : Bool
  pending  : List Byte
  asked    : Nat := 0
  bad      : Option (Nat × Nat)
  deriving DecidableEq, Repr

/-- A DMA channel (R282 to R303). -/
structure DmaCh where
  state     : DmaState
  cause     : Nat
  fault     : Bool
  pc        : Nat
  program   : Nat
  progImage : Bool
  complete  : Option Nat
  faultAddr : Nat
  bytes     : Nat
  l0        : Option Nat
  l1        : Option Nat
  jobTag    : Nat
  b0        : Nat
  b1        : Nat
  b0Init    : Nat
  b1Init    : Nat
  tokens    : Nat
  need      : Nat
  steps     : Nat
  move      : Option DmaMove
  deriving DecidableEq, Repr

/-- A channel that has run no job. -/
def DmaCh.init : DmaCh :=
  { state := .idle, cause := 0, fault := false, pc := 0, program := 0, progImage := false, complete := none, faultAddr := 0,
    bytes := 0, l0 := none, l1 := none, jobTag := 0, b0 := 0, b1 := 0, b0Init := 0, b1Init := 0, tokens := 0, need := 0,
    steps := 0, move := none }

/-- The states of a decoder (R332); DRY is DECODE on a page that does not expose. -/
inductive DecState where
  | idle
  | decode
  | seek
  | wait
  deriving DecidableEq, Repr

/-- A page as a station's decoder takes it (R317): the page in flight, its PAGE_NO and plane identifier, the plane (none for
the feed), its start position on the station, and the lines that the station takes. -/
structure DecPage where
  key    : Nat
  pageNo : Nat
  plane  : Nat
  src    : Option Plane
  start  : Int
  lines  : Nat
  deriving DecidableEq, Repr

/-- A station's decoder (R305 to R321, R331, R332): its state, what its tokens refer to, the pages it has still to take (the
first one is in progress unless it is IDLE), its place in the page, the band and the stream, and the latest state record.
`ended` says that END has been consumed or that a seek has found the next stream, `extra` that the stream held more lines than
the station takes, `blanked` that the page is not decoded in full, `shown` that its latest line was decoded with output, `ready` that the last record is complete. -/
structure Decoder where
  state     : DecState
  histValid : Bool
  lastCause : Nat
  st        : CodecSt
  queue     : List DecPage
  fromFeed  : Bool
  line      : Nat
  band      : Nat
  bandNext  : Nat
  bandLeft  : Nat
  bandBytes : Nat
  payload   : Nat
  width     : Nat
  feedOff   : Nat
  planeOff  : Nat
  ended     : Bool
  extra     : Bool
  blanked   : Bool
  shown     : Bool
  saved     : List Byte
  savedPage : Nat
  ready     : Bool
  deriving DecidableEq, Repr

/-- A decoder of a station in no job. -/
def Decoder.init : Decoder :=
  { state := .idle, histValid := false, lastCause := 0, st := CodecSt.init, queue := [], fromFeed := false, line := 0,
    band := 0, bandNext := 0, bandLeft := 0, bandBytes := 0, payload := 0, width := 0, feedOff := 0, planeOff := 0,
    ended := false, extra := false, blanked := false, shown := false, saved := [], savedPage := 0, ready := true }

/-- A decoder as JOB_ARM and the end of a job leave it (R317 step 6); the latest record stays readable. -/
def Decoder.rest (d : Decoder) : Decoder :=
  { Decoder.init with lastCause := d.lastCause, saved := d.saved, savedPage := d.savedPage }

end Sys2Proof.Machine
end

