-- ==== Sys2Proof/Machine/PartsSys.lean ====
section
/-!
DEFINITION. The pieces of the state of the services around the engine: consumables, calibration, the security cores, firmware banks,
thermal shutdown records, sleep, and what a takeover leaves to be done.
-/

namespace Sys2Proof.Machine

/-- A consumable token's place (R637 to R642), by its index: the state of R642, the certificate, the last verified COUNT, the lines
accumulated since, whether it has been reported low, whether it was there when its station's job was armed, whether it has failed
(R641) and the stations that this inhibits, whether an authentication is under way, the AMOUNT of a DECREMENT that has not been answered, and the retries made. -/
structure Consumable where
  state   : Nat
  cert    : TokenCert
  count   : Nat
  lines   : Nat
  low     : Bool
  armed   : Bool
  failed  : Bool
  barred  : Nat
  query   : Bool
  asked   : Option Nat
  retries : Nat
  deriving DecidableEq, Repr

/-- A ramp of a calibrated value (R552): from, to, the steps taken and the length. -/
structure CalRamp where
  old : Int
  new : Int
  i   : Nat
  n   : Nat
  deriving DecidableEq, Repr

/-- Calibration (R536 to R552). `user` is the user layer, by the first four bytes of an entry; the value is its OFFSET and
GAIN. `copies` are the records in MRAM, by side and copy; `saved` is the layer that the latest saved generation holds. `ramps`
are the ramps that run and `held` the values that wait for JOB_ARM, by entry and field. `steps` counts the channels a group's
calibration has served; `barred` holds the items under a permanent action of R550, in MRAM. -/
structure Cal where
  user   : Tab Word
  copies : Tab (List Byte)
  saved  : Tab Word
  ramps  : Tab CalRamp
  held   : Tab Int
  steps  : Tab Nat
  barred : List Nat
  deriving DecidableEq, Repr

/-- Calibration at a module's first start: no user layer, no copies. -/
def Cal.init : Cal := { user := [], copies := [], saved := [], ramps := [], held := [], steps := [], barred := [] }

/-- A side's security core (R619 to R648): the generation of its RECORD_SIGN key (0 the one of manufacture) and of a pending pair,
whether the key in force is certified, whether IDENTITY holds its pair, the REC_SEQ of the last checkpoint it signed, and whether
it is in its error state. -/
structure SecCore where
  gen       : Nat
  certified : Bool
  pending   : Option Nat
  identity  : Bool
  lastSeq   : Nat
  error     : Bool
  deriving DecidableEq, Repr

/-- A core as manufactured (R625). -/
def SecCore.init : SecCore := { gen := 0, certified := true, pending := none, identity := true, lastSeq := 0, error := false }

/-- What the cores hold for the module (R621 to R625): the three module slots (no bytes: the Dolsoset default for TOKEN_TRUST, empty for
the others), whether the Crypto Officer role is held, the challenge that is valid, the times of the latest failures, the lockout,
and the number of key generations so far. -/
structure Sec where
  trust     : List Byte
  owner     : List Byte
  cosign    : List Byte
  held      : Bool
  challenge : Option (List Byte)
  fails     : List Nat
  locked    : Bool
  gens      : Nat
  deriving DecidableEq, Repr

/-- Security as delivered: unowned (R624). -/
def Sec.init : Sec :=
  { trust := [], owner := [], cosign := [], held := false, challenge := none, fails := [], locked := false, gens := 0 }

/-- A firmware bank (R218, R633): as delivered until FW_BEGIN touches it, then the length announced and the bytes written, by offset. -/
structure FwBank where
  touched : Bool
  len     : Nat
  cells   : Tab Byte
  deriving DecidableEq, Repr

/-- A bank as delivered. -/
def FwBank.init : FwBank := { touched := false, len := 0, cells := [] }

/-- Thermal shutdown records (R573): the unacknowledged ones, newest first, OVERFLOW, the shutdowns since manufacture, and whether
the newest still waits for PULSES_LOST; the mask of sides that a DIE shutdown of their own has stopped (R572); and the mask of head and
motor sensors, from channel 32 on, whose next sample says whether they are fitted (R568). -/
structure Shut where
  recs     : List (List Byte)
  overflow : Bool
  count    : Nat
  waiting  : Bool
  stopped  : Nat
  fitTest  : Nat
  deriving DecidableEq, Repr

/-- No shutdown yet. -/
def Shut.init : Shut := { recs := [], overflow := false, count := 0, waiting := false, stopped := 0, fitTest := 0x7FFF }

/-- Sleep (R562 to R567): the wake latch, whether an exit is under way, and the fuser channels that were ON at entry to DOZE. -/
structure Sleep where
  latch   : List WakeSrc
  exiting : Bool
  fusers  : Nat
  deriving DecidableEq, Repr

/-- A module that runs. -/
def Sleep.init : Sleep := { latch := [], exiting := false, fusers := 0 }

/-- Redundancy beside the LIG registers (R582 to R601): the side that lost the token and has not left, the time of the latest
detection, the PAGE_NO of the latest station checkpoint, the times of the sides' latest self-reported faults, and the times at
which stations' latest counted mismatch runs began. -/
structure Redundancy where
  lostBy   : Option SideId
  detectAt : Nat
  ckptPage : Nat
  faultAt  : Tab Nat
  misAt    : Tab Nat
  deriving DecidableEq, Repr

/-- No takeover yet. -/
def Redundancy.init : Redundancy := { lostBy := none, detectAt := 0, ckptPage := 0, faultAt := [], misAt := [] }

end Sys2Proof.Machine
end

