-- ==== Sys2Proof/Machine/State.lean ====
section
/-!
DEFINITION. The state of the module: two sides, what is module-wide, the image memories, and the queue of waiting commands.
Registers that are plain words live in sparse lists over the register map; everything with structure has a field of its own.
-/

namespace Sys2Proof.Machine

/-- One side (R2): its state, its registers, its event router, its endpoint and rings, its memory controller, its DMA
channels and feeds. -/
structure Side where
  st        : SideState
  step      : Nat
  own       : Bool
  regs      : Tab Word
  latch     : Tab Word
  evt       : Evt
  msix      : Msix
  ring      : Tab RingAux
  linkUp    : Bool
  endpoint  : Bool
  d3        : Bool
  l1        : Bool
  aspm      : Bool
  cables    : Bool × Bool
  snapSeq   : Nat
  published : Nat
  boots     : Nat
  imc       : Imc
  dma       : Tab DmaCh
  feeds     : Tab (List Byte)
  alive     : Bool
  faultN    : Bool
  bankTry   : Nat
  fell      : Bool
  boot      : BootRec
  bankA     : FwBank
  bankB     : FwBank
  core      : SecCore
  encZero   : Tab (Int × Int)
  lastRing  : Nat
  deriving DecidableEq, Repr

/-- The module without its image memories and its queue. -/
structure Mach where
  part      : Part
  fresh     : Nat
  rtc       : Nat
  token     : SideId
  safe      : Bool
  moving    : Option (SideId × Bool)
  lanes     : Nat
  ligKey    : Bool
  ligUp     : Bool
  tko       : Nat
  a         : Side
  b         : Side
  seqRegs   : Tab Word
  power     : Power
  seq       : Seq
  bus       : Bus
  ilk       : Interlocks
  eng       : EngState
  cause     : Nat
  armed     : Nat
  jobs      : Tab Job
  pages     : Tab Page
  nextPage  : Nat
  lastComm  : Nat
  records   : Records
  counters  : Tab Counter
  lots      : Tab (List Byte)
  feed      : List FeedEntry
  regions   : Tab Region
  planes    : Tab Plane
  tpls      : Tab TplSet
  glyphs    : Tab TplSet
  encodes   : List EncodeJob
  tags      : List TagRec
  flights   : List Flight
  awaits    : List Await
  deferred  : List Deferred
  logFilter : Tab Nat
  log       : List LogEntry
  logSeq    : Nat
  faults    : Tab FaultInst
  faultCfg  : Tab FaultCfg
  enc       : Tab EncState
  caps      : Tab CapState
  rejs      : Tab RejState
  io24      : Bool
  stns      : Tab Station
  decs      : Tab Decoder
  drv       : Drives
  cal       : Cal
  tokens    : Tab Consumable
  sec       : Sec
  shut      : Shut
  sleep     : Sleep
  redund    : Redundancy
  diag      : Tab Nat
  out       : List Out
  deriving DecidableEq, Repr

/-- The image memories of the two sides. -/
structure Images where
  a : Image
  b : Image
  deriving DecidableEq, Repr

/-- The state: the module, its image memories, and the commands that wait, first in first out. -/
structure State where
  m       : Mach
  img     : Images
  pending : List Instr
  deriving DecidableEq, Repr


/-- Who raises a fault: an access to an address that the spec does not give the machine. Safe: the machine stops where the spec
gives nothing. -/
inductive Fault where
  /-- Raised by a register access beyond the window of its BAR (R129): the host's address decoding sends none there. Safe. -/
  | outsideBar
  deriving DecidableEq, Repr

/-- Why a command has no meaning. -/
inductive Refusal where
  /-- Raised by an arm of `exec` that has no meaning yet, with the row's mnemonic. Safe: nothing is claimed of it. -/
  | notModelled (mnemonic : String)
  deriving DecidableEq, Repr

/-! ### Reset -/

/-- The event router after reset: nothing pending, everything masked (R165 to R170). -/
def Evt.init : Evt :=
  { pend := 0, mask := BitVec.allOnes 128, count := [], route := [], coal := [], vec := [] }

/-- The MSI-X state of an endpoint that has been reset (R135). -/
def Msix.init : Msix := { enable := false, funcMask := false, table := [], pba := 0 }

/-- The memory controller of a side as delivered: no device retired, no unit bad (R273). -/
def Imc.init : Imc := { retired := [], bad := [], tracked := [], nextAge := 0, log := [], scrub := 0 }

/-- The boot record of a side as delivered (R83): bank A preferred and marked good, TRIAL and TRIED clear. -/
def BootRec.init : BootRec :=
  { preferB := false, trial := false, tried := false, goodA := true, goodB := false, verA := false, verB := false }

/-- A side that has not started. -/
def Side.init : Side :=
  { st := .down, step := 0, own := false, regs := [], latch := [], evt := Evt.init, msix := Msix.init, ring := [],
    linkUp := false, endpoint := false, d3 := false, l1 := false, aspm := false, cables := (true, true), snapSeq := 0, published := 0, boots := 0, imc := Imc.init,
    dma := [], feeds := [], alive := false, faultN := false, bankTry := 0, fell := false, boot := BootRec.init,
    bankA := FwBank.init, bankB := FwBank.init, core := SecCore.init, encZero := [], lastRing := 7 }

/-- The power input of a module that has none. -/
def Power.init : Power :=
  { phase := .unpowered, feedX1 := false, feedX2 := false, inputGood := false, alwaysOn := false, holdoff := false,
    afterHold := false, mrLow := false, grace := false, rstHost := ⟨true, false⟩, rstHead := ⟨true, false⟩,
    straps := ⟨true, 0, false⟩, latched := ⟨true, 0, false⟩, heads := 0 }

/-- The sequencer's working state at reset; MRAM as delivered holds PB_GRACE 5 and nothing else. -/
def Seq.init : Seq := { inWindow := false, upFailed := none, late := [], stnDown := [], stnOff := 0, saved := 0x00000500 }

/-- The sequencing bus at reset. -/
def Bus.init : Bus :=
  { seqNo := 0, polled := 0, unanswered := [], missing := 0, serials := [], slaveDone := 0, slaveSteps := [],
    stepDone := false, groupStep := 0, grouped := false, lastHb := none, heard := false, returning := false, reqUp := false, reqDown := false,
    railFault := false, offAsked := false }

/-- The interlock loops before any of them is seen closed. -/
def Interlocks.init : Interlocks :=
  { laserA := false, laserB := false, laserLock := false, hvA := false, hvB := false, hvLock := false, cut0 := false,
    cut1 := false, laserEnabled := false }

/-- The record chain of a module as delivered: the first record takes REC_SEQ 1 and its PREV_HASH is zeros (R365). -/
def Records.init : Records :=
  { next := 1, prevHash := List.replicate 16 0, lastHead := List.replicate 32 0, entries := [], ckptSeq := 0, uncovered := 0,
    ckptTimer := false, journalled := 0, lastRec := 0, failed := false, warned := false }

/-- The module as delivered, without input power. -/
def Mach.init (p : Part) : Mach :=
  { part := p, fresh := 0, rtc := 0, token := .a, safe := false, moving := none, lanes := 0, ligKey := false, ligUp := false,
    tko := 0, a := Side.init, b := Side.init, seqRegs := [], power := Power.init, seq := Seq.init, bus := Bus.init,
    ilk := Interlocks.init, eng := .configured, cause := 0, armed := 0, jobs := [], pages := [], nextPage := 1,
    lastComm := 0, records := Records.init, counters := [], lots := [], feed := [], regions := [],
    planes := [], tpls := [], glyphs := [], encodes := [], tags := [], flights := [], awaits := [], deferred := [],
    logFilter := [], log := [], logSeq := 0, faults := [], faultCfg := [], enc := [], caps := [], rejs := [], io24 := true,
    stns := [], decs := [], drv := Drives.init, cal := Cal.init, tokens := [], sec := Sec.init,
    shut := Shut.init, sleep := Sleep.init, redund := Redundancy.init, diag := [], out := [] }

/-- The state after reset for a part: no input power, nothing in image memory, no command waiting. -/
def State.resetFor (p : Part) : State := { m := Mach.init p, img := ⟨⟨[], []⟩, ⟨[], []⟩⟩, pending := [] }

/-- The machine right after reset: a W9-D, the part that carries every unit of the family. -/
def State.reset : State := State.resetFor .w9d

end Sys2Proof.Machine
end

