-- ==== Sys2Proof/Machine/Lift.lean ====
section
/-!
DEFINITION. How a command's effect on the module becomes its effect on the state: the queue is never touched, and only a
command that acts on image memory sees it. Every command uses one new number for its free values. Which part the module is never
changes.
-/

namespace Sys2Proof.Machine

/-- The module as a command finds it, with a new number for the free values it meets. -/
def State.tick (s : State) : Mach := { s.m with fresh := s.m.fresh + 1 }

/-- A command that acts on the module and leaves the token where it is. -/
def onM (f : Mach → Mach) (s : State) : Host.Outcome State Fault Refusal :=
  .next { s with m := { f s.tick with token := s.m.token, part := s.m.part } }

/-- A command that may move the token. -/
def onToken (f : Mach → Mach) (s : State) : Host.Outcome State Fault Refusal := .next { s with m := { f s.tick with part := s.m.part } }

/-- A command that reads image memory. -/
def onImg (f : Images → Mach → Mach) (s : State) : Host.Outcome State Fault Refusal := onM (f s.img) s

/-- A command that writes image memory. -/
def onMem (f : Images → Mach → Images × Mach) (s : State) : Host.Outcome State Fault Refusal :=
  let r := f s.img s.tick
  .next { s with m := { r.2 with token := s.m.token, part := s.m.part }, img := r.1 }

end Sys2Proof.Machine
end

