-- ==== Sys2Proof/Machine/F32.lean ====
section
/-!
DEFINITION. IEEE 754 binary32 arithmetic on register words, rounding to nearest, ties to even: the arithmetic of the control
loops (R498).
-/

namespace Sys2Proof.Machine

/-- What a binary32 word stands for: not a number, an infinity, or a finite value with its sign. -/
inductive F32 where
  | nan
  | inf (neg : Bool)
  | fin (neg : Bool) (v : Rat)
  deriving DecidableEq, Repr

/-- 2 to an integer power. -/
def pow2 (e : Int) : Rat := if 0 ≤ e then ((2 ^ e.toNat : Nat) : Rat) else 1 / ((2 ^ (-e).toNat : Nat) : Rat)

/-- The value of a word. -/
def F32.of (w : Word) : F32 :=
  let neg := bitOf w 31
  let e := fieldOf w 23 8
  let f := fieldOf w 0 23
  let sgn (v : Rat) : Rat := if neg then -v else v
  if e = 255 then (if f = 0 then .inf neg else .nan)
  else if e = 0 then .fin neg (sgn ((f : Rat) * pow2 (-149)))
  else .fin neg (sgn (((f + 2 ^ 23 : Nat) : Rat) * pow2 ((e : Int) - 150)))

/-- Round a rational to the nearest integer, ties to even. -/
def roundEven (q : Rat) : Int :=
  let f := q.floor
  let r := q - (f : Rat)
  if r < 1 / 2 then f else if 1 / 2 < r then f + 1 else if f % 2 = 0 then f else f + 1

/-- Round a rational to the nearest integer, ties away from zero. -/
def roundHalf (q : Rat) : Int := if q < 0 then -((-q + 1 / 2).floor) else (q + 1 / 2).floor

/-- The exponent of the leading bit of a positive rational: the greatest `e` with 2^e no more than it. -/
def leadExp (q : Rat) : Int :=
  let e : Int := (Nat.log2 q.num.natAbs : Int) - (Nat.log2 q.den : Int)
  if pow2 e ≤ q then e else e - 1

/-- The word nearest to a rational; `neg` gives the sign of a zero. -/
def F32.round (neg : Bool) (q : Rat) : Word :=
  let s : Nat := if q < 0 || (q = 0 && neg) then 2 ^ 31 else 0
  let a := if q < 0 then -q else q
  if a = 0 then BitVec.ofNat 32 s
  else
    let e := max (leadExp a) (-126)
    let m := (roundEven (a / pow2 (e - 23))).toNat
    let e' : Int := if m = 2 ^ 24 then e + 1 else e
    let m' := if m = 2 ^ 24 then 2 ^ 23 else m
    if 127 < e' then BitVec.ofNat 32 (s + 255 * 2 ^ 23)
    else if m' < 2 ^ 23 then BitVec.ofNat 32 (s + m')
    else BitVec.ofNat 32 (s + (e' + 127).toNat * 2 ^ 23 + (m' - 2 ^ 23))

/-- The quiet not-a-number. -/
def f32Nan : Word := 0x7FC00000

/-- The word of a rational. -/
def f32 (q : Rat) : Word := F32.round false q

/-- An infinity. -/
def f32Inf (neg : Bool) : Word := if neg then 0xFF800000 else 0x7F800000

/-- Negation. -/
def fneg (a : Word) : Word := a ^^^ 0x80000000

/-- Addition. -/
def fadd (a b : Word) : Word :=
  match F32.of a, F32.of b with
  | .nan, _ => f32Nan
  | _, .nan => f32Nan
  | .inf s, .inf t => if s = t then f32Inf s else f32Nan
  | .inf s, .fin _ _ => f32Inf s
  | .fin _ _, .inf t => f32Inf t
  | .fin s x, .fin t y => F32.round (s && t) (x + y)

/-- Subtraction. -/
def fsub (a b : Word) : Word := fadd a (fneg b)

/-- Multiplication. -/
def fmul (a b : Word) : Word :=
  match F32.of a, F32.of b with
  | .nan, _ => f32Nan
  | _, .nan => f32Nan
  | .inf s, .inf t => f32Inf (s != t)
  | .inf s, .fin t y => if y = 0 then f32Nan else f32Inf (s != t)
  | .fin s x, .inf t => if x = 0 then f32Nan else f32Inf (s != t)
  | .fin s x, .fin t y => F32.round (s != t) (x * y)

/-- Division. -/
def fdiv (a b : Word) : Word :=
  match F32.of a, F32.of b with
  | .nan, _ => f32Nan
  | _, .nan => f32Nan
  | .inf _, .inf _ => f32Nan
  | .inf s, .fin t _ => f32Inf (s != t)
  | .fin s _, .inf t => F32.round (s != t) 0
  | .fin s x, .fin t y => if y = 0 then (if x = 0 then f32Nan else f32Inf (s != t)) else F32.round (s != t) (x / y)

/-- Whether the first is less than the second; false when either is not a number. -/
def flt (a b : Word) : Bool :=
  match F32.of a, F32.of b with
  | .nan, _ => false
  | _, .nan => false
  | .inf s, .inf t => s && !t
  | .inf s, .fin _ _ => s
  | .fin _ _, .inf t => !t
  | .fin _ x, .fin _ y => decide (x < y)

/-- Whether the two are equal as numbers. -/
def feq (a b : Word) : Bool :=
  match F32.of a, F32.of b with
  | .nan, _ => false
  | _, .nan => false
  | .inf s, .inf t => s == t
  | .fin _ x, .fin _ y => decide (x = y)
  | .inf _, .fin _ _ => false
  | .fin _ _, .inf _ => false

/-- The magnitude. -/
def fabs (a : Word) : Word := a &&& 0x7FFFFFFF

/-- `clamp` of R498. -/
def fclamp (v lo hi : Word) : Word := if flt v lo then lo else if flt hi v then hi else v

/-- The value of a word as a rational: 0 when it is not finite. -/
def fval (a : Word) : Rat :=
  match F32.of a with
  | .fin _ x => x
  | .nan => 0
  | .inf _ => 0

/-- Whether a word is a finite number. -/
def ffinite (a : Word) : Bool := fieldOf a 23 8 != 255

end Sys2Proof.Machine
end

