-- ==== Sys2Proof/Config.lean ====
section
/-!
DEFINITION. What the spec leaves to the instance or leaves open: constants without a body. Nothing in Lean can see a value of
one of them, so a statement holds whatever they are. A constant applied to the step counter gives a fresh value at each step.
-/

namespace Sys2Proof.Config

/-- Microseconds of RTC time that have passed at a step since the RTC was last set. The module has no row for a clock
tick, so the passing of time is a free value. -/
opaque elapsed : Nat → Nat

/-- The module serial (R128, R199): 64 bits, one per module. -/
opaque moduleSerial : Nat

/-- The MAC address of a side's Drone, recorded in OTP (R51). -/
opaque droneMac : Nat → Nat

/-- The build number of the firmware in a bank of a side as delivered (R199). -/
opaque fwBuild : Nat → Nat → Nat

/-- A result that the spec leaves undefined at a step. -/
opaque freeWord : Nat → Word

/-- A byte that the spec leaves undefined at a step, by its address. -/
opaque freeByte : Nat → Nat → Byte

/-- A count that the spec leaves open at a step, by what it is a count of. -/
opaque freeNat : Nat → Nat → Nat

/-- A signed quantity that the spec leaves open at a step, by what it is. -/
opaque freeInt : Nat → Nat → Int

/-- A yes or no that the spec leaves open at a step, by what it decides. -/
opaque freeBool : Nat → Nat → Bool

/-- The inter-page gap in µs that HV_SET needs for an output of the armed job (R514 names the command W; no rule gives its
gap). -/
opaque hvGap : Nat

/-- A value of the factory calibration layer in OTP (R536), by the first four bytes of its entry and the field it loads. -/
opaque factory : Nat → Nat → Int

/-- The bits of BEAM_CFG that the factory layer gives besides CURRENT: ENABLE and FORMAT of an emitter, by station and emitter
(R410 has the beam tables loaded from the calibration layers; no rule gives their values). -/
opaque beamSetup : Nat → Nat → Nat

/-- The result number that SELF_TEST answers for a pass and for a failure (R214 gives the field and no values). -/
opaque selfTestResult : Bool → Nat

/-- The ECDSA P-256 signature, r then s, that a side's security core makes over a message with a key of a generation (R364,
R631). Signing keys are random and never leave the boundary. -/
opaque sign : Nat → Nat → List Byte → List Byte

/-- The byte that stands for FNC1 in the data that a digest covers (R362 has the digest cover a field's data; no rule gives FNC1
a byte). -/
opaque fnc1 : Byte

/-- Which of two Code 128 switchings of the same length is taken (R347 asks for the shortest). -/
opaque codeTie : Nat → Bool

/-- How the parity of the ten blocks of a 144 by 144 Data Matrix symbol is turned against their data (the standard is read in two ways). -/
opaque dmTurn : Nat

/-- How mixed data is cut into QR Code segments of a mode and a length, for a group of versions (R347: the standard's procedure, which the
spec does not give). -/
opaque qrSplit : Nat → List (Option Byte) → List (Nat × Nat)

/-- How the standard's scoring of QR Code masks is read where its wording leaves it open: whether the quiet zone counts as light, whether a
finder-like pattern counts for both sides, whether one of wider modules counts, and whether a share of dark modules on the edge of a step
counts to the higher one. -/
opaque maskReading : Nat → Bool

/-- Which of several masks with the fewest points is taken. -/
opaque maskTie : Nat

/-- The predefined length of a GS1 element whose AI begins with 23, less these two digits (R345). -/
opaque ai23 : Nat

/-- Which way a centred box content lies when the space left over is odd (R340 gives no rounding). -/
opaque centreUp : Bool

/-- How LTK_READ packs what it returns into its 48 bytes (R211 names the contents and gives no layout): position, speed, ENC_STAT and
ENC_INDEX_LAST, and COMPARE_SKIPPED of each compare unit. -/
opaque ltkRead : Int → Word → Word × Word → List Nat → List Byte

/-- The public key of a slot's key pair, by side, slot and generation, as a 65-byte point (R625): keys are made inside the boundary or
at manufacture. -/
opaque pubKey : Nat → Nat → Nat → List Byte

/-- The certificate request that a side's core makes for a pending key of a generation (R629). -/
opaque csr : Nat → Nat → List Byte

/-- What a firmware bank holds as delivered (R83, R218, R635), by side, bank and what is asked: 0 RELEASE, 1 BUILD, 2 SEC_VERSION, 3 the
state of R636 of the bank that is not marked good. -/
opaque fwDelivered : Nat → Nat → Nat → Nat

/-- How ARGS packs a log entry's values into its 40 bytes (R201), by unit and code: the chapters name the values and give no layout. -/
opaque logArgs : Nat → Nat → List Int → List Byte

end Sys2Proof.Config
end

