-- ==== Sys2Proof/Machine/RegMap.lean ====
section
/-!
DEFINITION. The register map: every register of BAR0 (R16) and BAR4 (R143) that is held as a register word, with its offset,
its instances, its reset value and what a host write may do to each of its bits (R14). Offsets of BAR4 are held above those
of BAR0. Registers that are views of structured state (the event router, the MSI-X table, counters, FIFOs) have no row here.
-/

namespace Sys2Proof.Machine

/-- A register of the map: its first offset, up to two strides of instances, its reset value, and its writable bits by access
code. `clr` marks a field that is cleared whole by writing 1 to any of its bits. -/
structure RegRow where
  name  : String
  base  : Nat
  reset : Word := 0
  rw    : Word := 0
  w1c   : Word := 0
  rwl   : Word := 0
  fw    : Word := 0
  clr   : Word := 0
  n     : Nat := 1
  s     : Nat := 4
  n2    : Nat := 1
  s2    : Nat := 4
  deriving DecidableEq, Repr

/-- Where BAR4 lies in the joint offset space. -/
def bar4 : Nat := 0x1000000

/-- MGT, PST, THM and SEQ (R85, R575 to R577, R92 to R99, R126, R127, R616, R617). -/
def rowsSystem : List RegRow :=
  [ { name := "MGT_STAT", base := 0x10000 },
    { name := "MGT_INHIBIT", base := 0x10100, w1c := 0x3F000000 },
    { name := "MGT_FC_TOTAL", base := 0x1101C, n := 24, s := 0x10 },
    { name := "PST_CTL", base := 0x20000, reset := 0x20000000, fw := 0xF0000000 },
    { name := "PST_STAT", base := 0x20004, reset := 0xA8000000 },
    { name := "PST_TIMER_IDLE", base := 0x20010, reset := 50, fw := 0xFFFFFFFF },
    { name := "PST_TIMER_DOZE", base := 0x20014, reset := 900000, fw := 0xFFFFFFFF },
    { name := "PST_TIMER_HIB", base := 0x20018, reset := 0, fw := 0xFFFFFFFF },
    { name := "PST_QUIET", base := 0x2001C },
    { name := "PST_WAKE_EN", base := 0x20020, reset := 0x1F, rw := 0x1B },
    { name := "PST_WAKE_SRC", base := 0x20024, w1c := 0x11F },
    { name := "THM_CLASS_CFG_DIE", base := 0x30000, reset := 0x646E7D50, rw := 0xFFFFFFF0 },
    { name := "THM_CLASS_CFG_HEAD", base := 0x30004, reset := 0x373C4630, rw := 0xFFFFFFF0 },
    { name := "THM_CLASS_CFG_BASE", base := 0x30008, reset := 0x373C4630, rw := 0xFFFFFFF0 },
    { name := "THM_CLASS_CFG_MOTOR", base := 0x3000C, reset := 0x78828C50, rw := 0xFFFFFFF0 },
    { name := "THM_STAT", base := 0x30010 },
    { name := "THM_MAX", base := 0x30014 },
    { name := "THM_HOLD", base := 0x30018, reset := 0xC8, rw := 0xFFFF },
    { name := "THM_SENSE", base := 0x30100, n := 47 },
    { name := "SEQ_CTL", base := 0x40000, reset := 0x00050000, rw := 0x20FF0000, rwl := 0x0F000000 },
    { name := "SEQ_STAT", base := 0x40004, w1c := 0x0068003F },
    { name := "SEQ_RST_CFG", base := 0x40010, reset := 0x00141400, rw := 0x00FFFF00 },
    { name := "SEQ_BUS_CFG", base := 0x40020, reset := 0x80, rw := 0x80, rwl := 0xFFFF0000 },
    { name := "SEQ_BUS_STAT", base := 0x40024, w1c := 0x4000, clr := 0xFF },
    { name := "SEQ_STEP_RAILS", base := 0x40100, n := 16, rwl := 0x00FFFFFF },
    { name := "SEQ_STEP_TIME", base := 0x40140, n := 16, reset := 0x0050C864, rwl := 0xFFFFFFFF },
    { name := "SEQ_RAIL_CFG_5V", base := 0x40200, n := 6, s := 16, reset := 0x138852A0, rwl := 0xFFFFFFF8 },
    { name := "SEQ_RAIL_CFG_3V3", base := 0x40204, n := 6, s := 16, reset := 0x0CE452A0, rwl := 0xFFFFFFF0 },
    { name := "SEQ_RAIL_CFG_PROG", base := 0x40208, n := 6, s := 16, reset := 0x070852A0, rwl := 0xFFFFFFF0 },
    { name := "SEQ_RAIL_CFG_AUX", base := 0x4020C, n := 6, s := 16, reset := 0x138852A0, rwl := 0xFFFFFFF0 },
    { name := "SEQ_RAIL_MEAS", base := 0x40300, n := 24, reset := 1 } ]

/-- LIG (R612 to R614). -/
def rowsLig : List RegRow :=
  [ { name := "LIG_TKO_CAUSE", base := 0xFC0004 },
    { name := "LIG_TKO_TIME_LO", base := 0xFC0008 },
    { name := "LIG_TKO_TIME_HI", base := 0xFC000C },
    { name := "LIG_LINK", base := 0xFC0010 },
    { name := "LIG_MISMATCH", base := 0xFC0014 },
    { name := "LIG_FAULT", base := 0xFC0018, w1c := 0x7F },
    { name := "LIG_JOIN", base := 0xFC001C },
    { name := "LIG_STN_STAT", base := 0xFC0100, n := 6, s := 0x20, reset := 0x80000000 },
    { name := "LIG_STN_LINE", base := 0xFC0104, n := 6, s := 0x20 },
    { name := "LIG_STN_MISLINE", base := 0xFC0108, n := 6, s := 0x20 },
    { name := "LIG_STN_RESYNC", base := 0xFC010C, n := 6, s := 0x20 } ]

/-- The ring pages and the global page of BAR4 (R144 to R150, R158 to R161, R172). -/
def rowsBar4 : List RegRow :=
  [ { name := "RING_BASE", base := bar4, n := 64, s := 0x1000, rwl := 0xFFFFF000 },
    { name := "RING_BASE_HI", base := bar4 + 4, n := 64, s := 0x1000, rwl := 0xFFFFFFFF },
    { name := "RING_SIZE_CMD", base := bar4 + 8, n := 8, s := 0x1000, reset := 0x7, rwl := 0xF },
    { name := "RING_SIZE_RSP", base := bar4 + 0x8008, n := 8, s := 0x1000, reset := 0x47, rwl := 0xF },
    { name := "RING_SIZE_DMA", base := bar4 + 0x10008, n := 32, s := 0x1000, reset := 0x6, rwl := 0xF },
    { name := "RING_SIZE_REC", base := bar4 + 0x30008, n := 8, s := 0x1000, reset := 0xCA, rwl := 0xF },
    { name := "RING_SIZE_LOG", base := bar4 + 0x38008, n := 4, s := 0x1000, reset := 0x48, rwl := 0xF },
    { name := "RING_SIZE_MCMD", base := bar4 + 0x3C008, reset := 0x6, rwl := 0xF },
    { name := "RING_SIZE_MRSP", base := bar4 + 0x3D008, reset := 0x46, rwl := 0xF },
    { name := "RING_SIZE_DIAG", base := bar4 + 0x3E008, n := 2, s := 0x1000, reset := 0x48, rwl := 0xF },
    { name := "RING_CTL", base := bar4 + 0xC, n := 64, s := 0x1000, rw := 0x80000000, rwl := 0x40000000 },
    { name := "RING_HEAD", base := bar4 + 0x10, n := 64, s := 0x1000 },
    { name := "RING_TAIL", base := bar4 + 0x14, n := 64, s := 0x1000 },
    { name := "RING_STAT", base := bar4 + 0x18, n := 64, s := 0x1000, w1c := 0x7C000000, clr := 0xFFFF },
    { name := "RING_WB_BASE", base := bar4 + 0x40000, rw := 0xFFFFFF00 },
    { name := "RING_WB_BASE_HI", base := bar4 + 0x40004, rw := 0xFFFFFFFF },
    { name := "RING_PEND_LO", base := bar4 + 0x40008, w1c := 0xFFFFFFFF },
    { name := "RING_PEND_HI", base := bar4 + 0x4000C, w1c := 0xFFFFFFFF },
    { name := "SNAP_BASE", base := bar4 + 0x40010, rwl := 0xFFFFFF80 },
    { name := "SNAP_BASE_HI", base := bar4 + 0x40014, rwl := 0xFFFFFFFF },
    { name := "SNAP_CTL", base := bar4 + 0x40018, reset := 0x64, rw := 0x80000000, rwl := 0xFFFF },
    { name := "LINK_STAT", base := bar4 + 0x4001C, clr := 0xFF } ]

/-- LTK (R227 to R230, R240, R241, R247, R249 to R251, R254 to R256, R260 to R262). -/
def rowsLtk : List RegRow :=
  [ { name := "ENC_CFG", base := 0xD00000, n := 4, s := 0x100, reset := 0x5080, fw := 0x000BF3F7 },
    { name := "ENC_POS_INC", base := 0xD00004, n := 4, s := 0x100, reset := 0x01000000, fw := 0xFFFFFFFF },
    { name := "ENC_INDEX_NOM", base := 0xD00008, n := 4, s := 0x100, fw := 0xFFFFFFFF },
    { name := "ENC_TOL", base := 0xD0000C, n := 4, s := 0x100, reset := 0x00400040, fw := 0xFFFFFFFF },
    { name := "ENC_SPEED", base := 0xD00020, n := 4, s := 0x100 },
    { name := "ENC_STAT", base := 0xD00024, n := 4, s := 0x100, w1c := 0x07000000 },
    { name := "ENC_INDEX_LAST", base := 0xD00028, n := 4, s := 0x100 },
    { name := "ENC_SUB_STEP", base := 0xD0002C, n := 4, s := 0x100 },
    { name := "CMP_START_LO", base := 0xD01000, n := 16, s := 0x40, fw := 0xFFFFFFFF },
    { name := "CMP_START_HI", base := 0xD01004, n := 16, s := 0x40, fw := 0xFFFFFFFF },
    { name := "CMP_SPACING_LO", base := 0xD01008, n := 16, s := 0x40, fw := 0xFFFFFFFF },
    { name := "CMP_SPACING_HI", base := 0xD0100C, n := 16, s := 0x40, fw := 0xFFFFFFFF },
    { name := "CMP_COUNT", base := 0xD01010, n := 16, s := 0x40, fw := 0xFFFFFFFF },
    { name := "CMP_ACTION", base := 0xD01014, n := 16, s := 0x40, fw := 0xFF01FF3F },
    { name := "CMP_NEXT_LO", base := 0xD01018, n := 16, s := 0x40 },
    { name := "CMP_NEXT_HI", base := 0xD0101C, n := 16, s := 0x40 },
    { name := "CMP_SKIPPED", base := 0xD01020, n := 16, s := 0x40, clr := 0xFFFFFFFF },
    { name := "CMP_UNIT_STAT", base := 0xD01024, n := 16, s := 0x40 },
    { name := "CAP_CFG", base := 0xD02000, n := 16, s := 0x20, reset := 0xA00, fw := 0xFF0F },
    { name := "CAP_STAT", base := 0xD02004, n := 16, s := 0x20, w1c := 0x40000000 },
    { name := "REJ_CFG", base := 0xD03000, n := 8, s := 0x20, reset := 0x64, fw := 0x8000FFFF },
    { name := "REJ_OFFSET_LO", base := 0xD03004, n := 8, s := 0x20, fw := 0xFFFFFFFF },
    { name := "REJ_OFFSET_HI", base := 0xD03008, n := 8, s := 0x20, fw := 0xFFFFFFFF },
    { name := "REJ_STAT", base := 0xD0300C, n := 8, s := 0x20, w1c := 0x78000000 },
    { name := "REJ_PULSES", base := 0xD03010, n := 8, s := 0x20 },
    { name := "STN_OFFSET", base := 0xD03800, n := 6, reset := 0x1000, fw := 0xFFFFFFFF },
    { name := "STN_OFFSET_ACT", base := 0xD03820, n := 6, reset := 0x1000 },
    { name := "OVS_CFG", base := 0xD03900, reset := 0x1005, fw := 0xFFFF },
    { name := "OVS_STAT", base := 0xD03904, w1c := 0x3F00 },
    { name := "OVS_LAG", base := 0xD03910, n := 6 } ]

/-- CMP and the record page (R372 to R374). -/
def rowsCmp : List RegRow :=
  [ { name := "CMP_CFG", base := 0x500004, reset := 0x1000, fw := 0x3FFF },
    { name := "CMP_COMPOSED", base := 0x500008 },
    { name := "CMP_MISSES", base := 0x50000C },
    { name := "CMP_SLACK_MIN", base := 0x500010, reset := 0x7FFFFFFF },
    { name := "CMP_LAT_MAX", base := 0x500014 },
    { name := "CMP_FAULT", base := 0x500020, w1c := 0xFF },
    { name := "CMP_COST", base := 0x500024, rw := 0xFFFFFF00 },
    { name := "JRNL_CFG", base := 0x508004, reset := 0x1000, fw := 0x7FFF } ]

/-- SCB (R406 to R409). -/
def rowsScb : List RegRow :=
  [ { name := "SCB_STN_STAT", base := 0x600000, n := 6, s := 0x10000 },
    { name := "SCB_STN_FAULTS", base := 0x600004, n := 6, s := 0x10000, w1c := 0x7FF },
    { name := "SCB_BLANKED", base := 0x600008, n := 6, s := 0x10000 },
    { name := "SCB_LINE", base := 0x60000C, n := 6, s := 0x10000 },
    { name := "SCB_BEAM_OUT", base := 0x600010, n := 6, s := 0x10000, fw := 0xFFFFFFFF },
    { name := "SCB_BEAM_FAILED", base := 0x600014, n := 6, s := 0x10000, fw := 0xFFFFFFFF },
    { name := "SCB_SPARE", base := 0x600018, n := 6, s := 0x10000, fw := 0x9F9F },
    { name := "SCB_TRC_RAMP", base := 0x60001C, n := 6, s := 0x10000, reset := 0x01000000, fw := 0xFFFF0000 },
    { name := "SCB_CFG", base := 0x600020, n := 6, s := 0x10000 },
    { name := "SCB_LED_LIMIT", base := 0x600024, n := 6, s := 0x10000 },
    { name := "SCB_STROBE", base := 0x600028, n := 6, s := 0x10000 },
    { name := "SCB_HEAD_TEMP", base := 0x60002C, n := 6, s := 0x10000 },
    { name := "SCB_DERATE_LINE", base := 0x600030, n := 6, s := 0x10000 } ]

/-- PXC (R433 to R438). -/
def rowsPxc : List RegRow :=
  [ { name := "PXC_CTL", base := 0xC00000, n := 6, s := 0x10000, reset := 0x00202800, fw := 0xC0FFFC00 },
    { name := "PXC_STAT", base := 0xC00004, n := 6, s := 0x10000 },
    { name := "PXC_SCAN_CFG", base := 0xC00008, n := 6, s := 0x10000, reset := 0x8B840000, fw := 0xFFFC0000 },
    { name := "PXC_DOT0", base := 0xC0000C, n := 6, s := 0x10000, reset := 0x60E00200, fw := 0xFFFFFFFF },
    { name := "PXC_WIN", base := 0xC00010, n := 6, s := 0x10000, reset := 0x08100A19, fw := 0xFFFFFFFF },
    { name := "PXC_SOS_CFG", base := 0xC00014, n := 6, s := 0x10000, reset := 0x1414, fw := 0xFFFF },
    { name := "PXC_FREQ", base := 0xC00018, n := 6, s := 0x10000 },
    { name := "PXC_Q", base := 0xC0001C, n := 6, s := 0x10000 },
    { name := "PXC_PHI", base := 0xC00020, n := 6, s := 0x10000 },
    { name := "PXC_SWEEPS", base := 0xC00024, n := 6, s := 0x10000 },
    { name := "PXC_DARK", base := 0xC00028, n := 6, s := 0x10000 },
    { name := "PXC_LOST", base := 0xC0002C, n := 6, s := 0x10000 },
    { name := "PXC_LOOP_TRIM", base := 0xC00030, n := 6, s := 0x10000 },
    { name := "PXC_TRIM_LIM", base := 0xC00034, n := 6, s := 0x10000, reset := 0x2710, fw := 0xFFFFFFFF },
    { name := "PXC_START_RES", base := 0xC00038, n := 6, s := 0x10000 },
    { name := "PXC_SEG", base := 0xC00100, n := 6, s := 0x10000, n2 := 64, fw := 0xFFFF },
    { name := "PXC_FACET_A", base := 0xC00200, n := 6, s := 0x10000, n2 := 12, s2 := 8, fw := 0xFFFFFFFF },
    { name := "PXC_FACET_B", base := 0xC00204, n := 6, s := 0x10000, n2 := 12, s2 := 8, fw := 0xFFFF },
    { name := "PXC_BOW", base := 0xC00300, n := 6, s := 0x10000, n2 := 8, fw := 0xFFFFFFFF },
    { name := "BEAM_CFG", base := 0xC01000, n := 6, s := 0x10000, n2 := 34, s2 := 0x10, fw := 0xF0FF0000 },
    { name := "BEAM_DLY", base := 0xC01004, n := 6, s := 0x10000, n2 := 34, s2 := 0x10, fw := 0xFFFF },
    { name := "BEAM_DIV", base := 0xC01008, n := 6, s := 0x10000, n2 := 34, s2 := 0x10, fw := 0xFFFF },
    { name := "BEAM_STAT", base := 0xC0100C, n := 6, s := 0x10000, n2 := 34, s2 := 0x10, w1c := 0xE0000000 } ]

/-- DMA channels and IMC (R277, R279, R301 to R303). The state and cause fields of DMA_CH_STAT are views of the channel. -/
def rowsDmaImc : List RegRow :=
  [ { name := "DMA_CH_CTL", base := 0x200000, n := 32, s := 0x100, rw := 0x80000000 },
    { name := "DMA_CH_STAT", base := 0x200004, n := 32, s := 0x100, w1c := 0x1FC00000 },
    { name := "DMA_CH_PACE", base := 0x200008, n := 32, s := 0x100, rw := 0xFFFF0000 },
    { name := "DMA_CH_MOVES", base := 0x200040, n := 32, s := 0x100 },
    { name := "IMC_CFG", base := 0x300000, reset := 0x01680001, rw := 0xFFFF0001 },
    { name := "IMC_STAT", base := 0x300004, reset := 0xFFFF, w1c := 0x08000000 },
    { name := "IMC_CE_COUNT", base := 0x300008 },
    { name := "IMC_UE_COUNT", base := 0x30000C },
    { name := "IMC_SCRUB_PASS", base := 0x300018 },
    { name := "IMC_ERR_CTL", base := 0x30002C, w1c := 0x40000000 } ]

/-- CDC (R329 to R333). -/
def rowsCdc : List RegRow :=
  [ { name := "CDC_ENC_CFG", base := 0x400000, reset := 0x10000000, rw := 0xFFFF0000 },
    { name := "CDC_ENC_STAT", base := 0x400004 },
    { name := "CDC_ENC_LINE", base := 0x400008 },
    { name := "CDC_ENC_PLANES", base := 0x40000C },
    { name := "CDC_DEC_ERR", base := 0x40101C, n := 6, s := 0x100, w1c := 0x80000000 },
    { name := "CDC_DEC_ERR_OFF_LO", base := 0x401020, n := 6, s := 0x100 },
    { name := "CDC_DEC_ERR_OFF_HI", base := 0x401024, n := 6, s := 0x100 },
    { name := "CDC_DEC_LEAD_MIN", base := 0x401028, n := 6, s := 0x100, reset := 0xFFFF },
    { name := "CDC_SREC_SEL", base := 0x408000, rw := 0x00077FFF } ]

/-- MDR (R465 to R467) and STP (R489, R490). -/
def rowsMotion : List RegRow :=
  [ { name := "MDR_STAT_ENC", base := 0xE00000, n := 8, s := 0x400, reset := 0x400 },
    { name := "MDR_STAT_POLY", base := 0xE02000, n := 6, s := 0x400, reset := 0x08000400 },
    { name := "MDR_FAULT", base := 0xE00004, n := 14, s := 0x400, w1c := 0x7F },
    { name := "MDR_CMD", base := 0xE00008, n := 14, s := 0x400 },
    { name := "MDR_SPEED", base := 0xE0000C, n := 14, s := 0x400 },
    { name := "MDR_TORQUE", base := 0xE00010, n := 14, s := 0x400 },
    { name := "MDR_FLUX", base := 0xE00014, n := 14, s := 0x400 },
    { name := "MDR_IUV", base := 0xE00018, n := 14, s := 0x400 },
    { name := "MDR_POS_LO", base := 0xE0001C, n := 14, s := 0x400 },
    { name := "MDR_POS_HI", base := 0xE00020, n := 14, s := 0x400 },
    { name := "MDR_LOST", base := 0xE00028, n := 14, s := 0x400 },
    { name := "MDR_PARAM", base := 0xE00100, n := 14, s := 0x400, n2 := 11, fw := 0xFFFFFFFF },
    { name := "MDR_CURVE_X", base := 0xE00200, n := 14, s := 0x400, n2 := 32, s2 := 8, fw := 0xFFFFFFFF },
    { name := "MDR_CURVE_Y", base := 0xE00204, n := 14, s := 0x400, n2 := 32, s2 := 8, fw := 0xFFFFFFFF },
    { name := "MDR_CURVE_CFG", base := 0xE00300, n := 14, s := 0x400, fw := 0xFFFF003F },
    { name := "MDR_CURVE_ON", base := 0xE00304, n := 14, s := 0x400, fw := 0xFFFFFFFF },
    { name := "MDR_BUS_STAT", base := 0xE08000 },
    { name := "MDR_BUS_CFG", base := 0xE08004, reset := 0x230, fw := 0x3FF },
    { name := "MDR_BUS_FAULT", base := 0xE08008, w1c := 0xF },
    { name := "MDR_BRAKE_ENERGY", base := 0xE0800C },
    { name := "STP_STAT", base := 0xE80000, n := 12, s := 0x100 },
    { name := "STP_FAULT", base := 0xE80004, n := 12, s := 0x100, w1c := 0x3F },
    { name := "STP_POS_LO", base := 0xE80008, n := 12, s := 0x100 },
    { name := "STP_POS_HI", base := 0xE8000C, n := 12, s := 0x100 },
    { name := "STP_TARGET_LO", base := 0xE80010, n := 12, s := 0x100 },
    { name := "STP_TARGET_HI", base := 0xE80014, n := 12, s := 0x100 },
    { name := "STP_SPEED", base := 0xE80018, n := 12, s := 0x100 },
    { name := "STP_INTERVAL", base := 0xE8001C, n := 12, s := 0x100 },
    { name := "STP_ACC_EFF", base := 0xE80020, n := 12, s := 0x100 },
    { name := "STP_GEAR_ERR", base := 0xE80024, n := 12, s := 0x100 },
    { name := "STP_LOAD", base := 0xE80028, n := 12, s := 0x100, reset := 0x3FF },
    { name := "STP_STEPS", base := 0xE8002C, n := 12, s := 0x100 },
    { name := "STP_PARAM", base := 0xE80040, n := 12, s := 0x100, n2 := 7, fw := 0xFFFFFFFF },
    { name := "STP_GEAR_NUM", base := 0xE80060, n := 12, s := 0x100, fw := 0xFFFFFFFF },
    { name := "STP_GEAR_DEN", base := 0xE80064, n := 12, s := 0x100, reset := 1, fw := 0xFFFFFFFF },
    { name := "STP_GEAR_ARM_LO", base := 0xE80068, n := 12, s := 0x100, fw := 0xFFFFFFFF },
    { name := "STP_GEAR_ARM_HI", base := 0xE8006C, n := 12, s := 0x100, fw := 0xFFFFFFFF },
    { name := "STP_GEAR_CFG", base := 0xE80070, n := 12, s := 0x100, fw := 0xC0000003 } ]

/-- CTE, HVG and FSR (R511, R512, R521 to R523, R533, R534). -/
def rowsProcess : List RegRow :=
  [ { name := "CTE_LOOP_FAULT", base := 0xF0001C, n := 256, s := 0x80, w1c := 0xF },
    { name := "CTE_LOAD", base := 0xF08000 },
    { name := "HVG_STAT", base := 0xF40000, n := 26, s := 0x40 },
    { name := "HVG_FAULT", base := 0xF40004, n := 26, s := 0x40, w1c := 0xF },
    { name := "HVG_LEVEL", base := 0xF40008, n := 26, s := 0x40, fw := 0xFFFFFFFF },
    { name := "HVG_LEVEL_ACT", base := 0xF4000C, n := 26, s := 0x40 },
    { name := "HVG_LIMIT", base := 0xF40010, n := 26, s := 0x40, fw := 0xFFFFFFFF },
    { name := "HVG_AC", base := 0xF40014, n := 26, s := 0x40, fw := 0xFFFFFFFF },
    { name := "HVG_VOLT", base := 0xF40018, n := 26, s := 0x40 },
    { name := "HVG_CURR", base := 0xF4001C, n := 26, s := 0x40 },
    { name := "HVG_ARCS", base := 0xF40020, n := 26, s := 0x40 },
    { name := "HVG_ILK", base := 0xF40800, w1c := 1 },
    { name := "FSR_STAT", base := 0xF60000, n := 4, s := 0x40 },
    { name := "FSR_FAULT", base := 0xF60004, n := 4, s := 0x40, w1c := 0x3F },
    { name := "FSR_SP", base := 0xF60008, n := 4, s := 0x40 },
    { name := "FSR_DUTY", base := 0xF6000C, n := 4, s := 0x40 },
    { name := "FSR_HALF", base := 0xF60010, n := 4, s := 0x40 },
    { name := "FSR_CFG", base := 0xF60014, n := 4, s := 0x40, n2 := 3, fw := 0xFFFFFFFF },
    { name := "FSR_TEMP", base := 0xF60400, n := 8 },
    { name := "FSR_MAINS", base := 0xF60800, n := 2 },
    { name := "FSR_CUTOUT_OPENED", base := 0xF60810, w1c := 1 } ]

/-- CAL and SEC (R553 to R556, R647, R648). -/
def rowsCalSec : List RegRow :=
  [ { name := "CAL_STAT", base := 0xF80000, w1c := 0x01000000 },
    { name := "CAL_RAMP", base := 0xF80004, reset := 0x04000100, fw := 0xFFFFFFFF },
    { name := "CAL_GEN_A", base := 0xF80008 },
    { name := "CAL_GEN_B", base := 0xF8000C },
    { name := "CAL_RUNNING", base := 0xF80010 },
    { name := "CAL_QUALITY", base := 0xF80100, n := 32, s := 0x10, n2 := 4 },
    { name := "CAL_SPARE", base := 0xF80400, n := 16 },
    { name := "SEC_STAT", base := 0xFE0000 },
    { name := "SEC_TAMPER", base := 0xFE0004 },
    { name := "SEC_FW", base := 0xFE0008 } ]

/-- The whole map. -/
def regRows : List RegRow :=
  rowsSystem ++ rowsLig ++ rowsBar4 ++ rowsLtk ++ rowsCmp ++ rowsScb ++ rowsPxc ++ rowsDmaImc ++ rowsCdc ++ rowsMotion ++
    rowsProcess ++ rowsCalSec

/-- Whether an offset is an instance of a row. -/
def RegRow.covers (r : RegRow) (off : Nat) : Bool :=
  decide (r.base ≤ off) &&
    (let d := off - r.base
     let i := d / r.s
     let rest := d % r.s
     if r.n2 = 1 then decide (i < r.n) && rest == 0
     else if r.n = 1 then decide (d / r.s2 < r.n2) && d % r.s2 == 0
     else decide (i < r.n) && decide (rest / r.s2 < r.n2) && rest % r.s2 == 0)

/-- The row that covers an offset. -/
def rowOf (off : Nat) : Option RegRow := regRows.find? (fun r => r.covers off)

/-- The reset value of the register at an offset; offsets that are not registers read 0 (R17, R143). -/
def resetOf (off : Nat) : Word := ((rowOf off).map RegRow.reset).getD 0

end Sys2Proof.Machine
end

