-- ==== Sys2Proof/Machine/Ops.lean ====
section
/-!
DEFINITION. The named operations over sides, registers, events, rings and the log, through which every command acts.
-/

namespace Sys2Proof.Machine

/-! ### Sides -/

/-- A side of the module. -/
def Mach.side (m : Mach) : SideId → Side
  | .a => m.a
  | .b => m.b

/-- The module with one side replaced. -/
def Mach.setSide (m : Mach) (d : SideId) (s : Side) : Mach :=
  match d with
  | .a => { m with a := s }
  | .b => { m with b := s }

/-- The module with one side changed. -/
def Mach.modSide (m : Mach) (d : SideId) (f : Side → Side) : Mach := m.setSide d (f (m.side d))

/-- Whether a side is fitted (R2): side B only on the W9-D. -/
def Mach.fitted (m : Mach) (d : SideId) : Bool := d == .a || m.part == .w9d

/-- Whether a side is in service (R585): it has reached step 9 and has not left. -/
def Mach.inService (m : Mach) (d : SideId) : Bool :=
  m.fitted d &&
    (match (m.side d).st with
     | .joining => true
     | .shadow => true
     | .active => true
     | .alone => true
     | .starting => false
     | .down => false)

/-- Apply a change for side A and then for side B, where the side satisfies a test. -/
def Mach.onSides (m : Mach) (p : Mach → SideId → Bool) (f : SideId → Mach → Mach) : Mach :=
  let m1 := if p m .a then f .a m else m
  if p m .b then f .b m1 else m1

/-- The RTC time in microseconds (R198: set by SYS_SET_TIME; its advance is a free value). -/
def Mach.now (m : Mach) : Nat := m.rtc + Config.elapsed m.fresh

/-- Something that leaves the module. -/
def Mach.emit (m : Mach) (o : Out) : Mach := { m with out := o :: m.out }

/-! ### Registers -/

/-- Offsets whose registers are one for the module (R91, R612: "Module-wide"). -/
def moduleWide (off : Nat) : Bool := decide (0x40000 ≤ off ∧ off < 0x50000)

/-- The word held at an offset, as the map gives it. -/
def Mach.rd (m : Mach) (d : SideId) (off : Nat) : Word :=
  if moduleWide off then sparseGet resetOf m.seqRegs off else sparseGet resetOf (m.side d).regs off

/-- Hold a word at an offset. -/
def Mach.wr (m : Mach) (d : SideId) (off : Nat) (v : Word) : Mach :=
  if moduleWide off then { m with seqRegs := sparsePut resetOf m.seqRegs off v }
  else m.modSide d (fun s => { s with regs := sparsePut resetOf s.regs off v })

/-- The register as the token holder has it (R19). -/
def Mach.rdA (m : Mach) (off : Nat) : Word := m.rd m.token off

/-- Hold a word at an offset on every side in service: both sides run the same pipeline (R21). -/
def Mach.wrB (m : Mach) (off : Nat) (v : Word) : Mach :=
  let t := m.wr m.token off v
  if m.inService m.token.other then t.wr m.token.other off v else t

/-- A field of a register. -/
def Mach.get (m : Mach) (d : SideId) (off lo len : Nat) : Nat := fieldOf (m.rd d off) lo len

/-- Set a field of a register. -/
def Mach.put (m : Mach) (d : SideId) (off lo len v : Nat) : Mach := m.wr d off (putField (m.rd d off) lo len v)

/-- A field of a register as the token holder has it. -/
def Mach.getA (m : Mach) (off lo len : Nat) : Nat := fieldOf (m.rdA off) lo len

/-- Set a field of a register on every side in service. -/
def Mach.putB (m : Mach) (off lo len v : Nat) : Mach :=
  let t := m.put m.token off lo len v
  if m.inService m.token.other then t.put m.token.other off lo len v else t

/-- A bit of a register as the token holder has it. -/
def Mach.bitA (m : Mach) (off i : Nat) : Bool := bitOf (m.rdA off) i

/-- Set a bit of a register on every side in service. -/
def Mach.setB (m : Mach) (off i : Nat) (v : Bool) : Mach := m.putB off i 1 (b2n v)

/-- A 64-bit register, low word first. -/
def Mach.rd64 (m : Mach) (d : SideId) (off : Nat) : Nat := (m.rd d off).toNat + 2 ^ 32 * (m.rd d (off + 4)).toNat

/-- A signed 64-bit register as the token holder has it. -/
def Mach.rdA64 (m : Mach) (off : Nat) : Int := signedOf 64 (m.rd64 m.token off)

/-- Hold a 64-bit value on every side in service. -/
def Mach.wrB64 (m : Mach) (off : Nat) (v : Int) : Mach :=
  let n := unsignedOf 64 v
  (m.wrB off (BitVec.ofNat 32 n)).wrB (off + 4) (BitVec.ofNat 32 (n / 2 ^ 32))

/-- Add to a register modulo 2^32 on every side in service. -/
def Mach.addB (m : Mach) (off n : Nat) : Mach := m.wrB off (m.rdA off + BitVec.ofNat 32 n)

/-- Add to a register of one side, saturating. -/
def Mach.addSat (m : Mach) (d : SideId) (off n : Nat) : Mach :=
  m.wr d off (BitVec.ofNat 32 (satAt 0xFFFFFFFF ((m.rd d off).toNat + n)))

/-- Add to a register on every side in service, saturating at a bound. -/
def Mach.addSatB (m : Mach) (off n : Nat) (bound : Nat := 0xFFFFFFFF) : Mach :=
  m.wrB off (BitVec.ofNat 32 (satAt bound ((m.rdA off).toNat + n)))

/-- Add to a field on every side in service, saturating at its width. -/
def Mach.addSatF (m : Mach) (off lo len n : Nat) : Mach :=
  m.putB off lo len (satAt (2 ^ len - 1) (m.getA off lo len + n))

/-! ### What a part carries (R2, R8, R9) -/

/-- The number of stations. -/
def stationsOf : Part → Nat
  | .w7s => 4
  | _ => 6

/-- The number of HV outputs. -/
def hvOf : Part → Nat
  | .w7s => 18
  | _ => 26

/-- The number of fuser channels. -/
def fusersOf : Part → Nat
  | .w7s => 2
  | _ => 4

/-- The number of motor channels. -/
def motorsOf : Part → Nat
  | .w7s => 8
  | _ => 14

/-- The number of stepper channels. -/
def steppersOf : Part → Nat
  | .w7s => 8
  | _ => 12

/-- The number of 1 GiB slices of a side. -/
def slicesOf : Part → Nat
  | .w7s => 8
  | _ => 16

/-- The number of head rails. -/
def railsOf (p : Part) : Nat := 4 * stationsOf p

/-- Whether the compositor is fitted. -/
def hasChanter (p : Part) : Bool := !(p == .w7s)

/-- Whether laser beam drive is available. -/
def hasLaser (p : Part) : Bool := !(p == .w7s)

/-- CAP_ID (R4, R6). -/
def capId (p : Part) (d : SideId) : Word :=
  match p, d with
  | .w9d, .a => 0xD591C000
  | .w9d, .b => 0xD591D000
  | .w9s, _ => 0xD5924000
  | .w7s, _ => 0xD5714000

/-- CAP_UNITS (R5, R6). -/
def capUnits : Part → Word
  | .w9d => 0xB58E4FFF
  | .w9s => 0xB58E47FF
  | .w7s => 0x6508220F

/-- Whether an event's unit is absent on a part (R9): the compositor's events and those of polygon channels (R451) on a W7-S, and on
parts with one side the events of Ligature and of takeover and handover (R618). -/
def eventUnitAbsent (p : Part) (n : Nat) : Bool :=
  (p == .w7s && (decide (72 ≤ n ∧ n ≤ 78) || n == 83 || n == 85)) || (!(p == .w9d) && (decide (112 ≤ n ∧ n ≤ 116) || n == 119))

/-- Events that are never raised (R163, R164, R557 and the like) or whose unit is absent (R9). -/
def eventAbsent (p : Part) (n : Nat) : Bool :=
  decide (11 ≤ n ∧ n ≤ 15) || n == 55 || n == 111 || decide (128 ≤ n) || eventUnitAbsent p n

/-! ### Events and messages (R165 to R171) -/

/-- The MSI-X entry of a vector; an entry never written is masked (R135). -/
def Msix.entry (x : Msix) (v : Nat) : MsixEntry := tabGet ⟨0, 0, true⟩ x.table v

/-- A vector's coalescing state. -/
def Evt.vecOf (e : Evt) (v : Nat) : VecState := tabGet ⟨0, false⟩ e.vec v

/-- EVT_COAL of a vector (R170), reset value 1. -/
def Evt.coalOf (e : Evt) (v : Nat) : Word := sparseGet (fun _ => (1 : Word)) e.coal v

/-- EVT_ROUTE of an event (R169). -/
def Evt.routeOf (e : Evt) (n : Nat) : Nat := sparseGet (fun _ => 0) e.route n

/-- EVT_COUNT of an event (R168). -/
def Evt.countOf (e : Evt) (n : Nat) : Nat := sparseGet (fun _ => 0) e.count n

/-- Whether a side may send a vector's message now (R132, R133). -/
def Side.mayMsg (s : Side) (v : Nat) : Bool :=
  s.msix.enable && !s.msix.funcMask && !(s.msix.entry v).masked && !s.d3 && s.linkUp

/-- A vector fires (R171 rule 2): the message is sent or its PBA bit is set, and count and timer start again. DESIGN CHOICE: R132
speaks of masked vectors only; a vector that fires while MSI-X Enable is 0, in D3hot or while the link is down sets its PBA bit too, and
its message is sent when messages can be sent again. -/
def Mach.fire (m : Mach) (d : SideId) (v : Nat) : Mach :=
  let s := m.side d
  let e := { s.evt with vec := sparsePut (fun _ => (⟨0, false⟩ : VecState)) s.evt.vec v ⟨0, false⟩ }
  if s.mayMsg v then (m.setSide d { s with evt := e }).emit (.msix d v)
  else m.setSide d { s with evt := e, msix := { s.msix with pba := putBit s.msix.pba v true } }

/-- One occurrence is counted against a vector (R171 rules 1 and 2). -/
def Mach.countVec (m : Mach) (d : SideId) (v : Nat) : Mach :=
  let s := m.side d
  let c := (s.evt.vecOf v).count + 1
  let coal := s.evt.coalOf v
  let target := if fieldOf coal 0 8 = 0 then 1 else fieldOf coal 0 8
  if target ≤ c ∨ fieldOf coal 16 16 = 0 then m.fire d v
  else m.setSide d { s with evt := { s.evt with
    vec := sparsePut (fun _ => (⟨0, false⟩ : VecState)) s.evt.vec v ⟨c, true⟩ } }

/-- Event `n` occurs on one side (R171 rule 1). -/
def Mach.raiseOn (m : Mach) (d : SideId) (n : Nat) : Mach :=
  if eventAbsent m.part n || !m.fitted d || (m.side d).st == .down then m
  else
    let s := m.side d
    let e := { s.evt with
      pend := s.evt.pend ||| BitVec.ofNat 128 (1 <<< n)
      count := sparsePut (fun _ => 0) s.evt.count n ((s.evt.countOf n + 1) % 2 ^ 32) }
    let m1 := m.setSide d { s with evt := e }
    if e.mask.getLsbD n then m1 else m1.countVec d (e.routeOf n)

/-- A module-wide event: it occurs on both sides. -/
def Mach.raise (m : Mach) (n : Nat) : Mach := (m.raiseOn .a n).raiseOn .b n

/-! ### Rings (R142 to R160) -/

/-- The page of ring `n` in the joint offset space. -/
def ringPage (n : Nat) : Nat := bar4 + 0x1000 * n

/-- Entries of a ring (R147): below 4 acts as 4, above 13 acts as 13. -/
def Mach.ringSize (m : Mach) (d : SideId) (n : Nat) : Nat := 2 ^ clampNat 4 13 (m.get d (ringPage n + 8) 0 4)

/-- Whether a ring is enabled (R148). -/
def Mach.ringOn (m : Mach) (d : SideId) (n : Nat) : Bool := bitOf (m.rd d (ringPage n + 0xC)) 31

/-- The consumer index of a ring. -/
def Mach.ringHead (m : Mach) (d : SideId) (n : Nat) : Nat := m.get d (ringPage n + 0x10) 0 16

/-- The producer index of a ring. -/
def Mach.ringTail (m : Mach) (d : SideId) (n : Nat) : Nat := m.get d (ringPage n + 0x14) 0 16

/-- Entries a ring holds (R152). -/
def Mach.ringHeld (m : Mach) (d : SideId) (n : Nat) : Nat := (m.ringTail d n + 65536 - m.ringHead d n) % 65536

/-- Free entries of a ring. -/
def Mach.ringFree (m : Mach) (d : SideId) (n : Nat) : Nat := m.ringSize d n - m.ringHeld d n

/-- Whether the module writes the ring (R142). -/
def ringToHost (n : Nat) : Bool :=
  decide (8 ≤ n ∧ n ≤ 15) || decide (48 ≤ n ∧ n ≤ 59) || decide (61 ≤ n ∧ n ≤ 63)

/-- The host address of entry `i` of a ring (R145, R146, R152): RING_BASE + (i mod N) × the entry's size, 128 bytes on record rings. -/
def Mach.ringAddr (m : Mach) (d : SideId) (n i : Nat) : Nat :=
  m.rd64 d (ringPage n) + i % m.ringSize d n * (if bitOf (m.rd d (ringPage n + 8)) 7 then 128 else 64)

/-- The working state of a ring. -/
def Side.ringAux (s : Side) (n : Nat) : RingAux := tabGet {} s.ring n

/-- Change the working state of a ring. -/
def Mach.modRing (m : Mach) (d : SideId) (n : Nat) (f : RingAux → RingAux) : Mach :=
  m.modSide d (fun s => { s with ring := tabPut s.ring n (f (s.ringAux n)) })

/-- The module moves its own index of a ring (R159, R160): the register, the pending bit and the write-back of the 32-bit word at
RING_WB_BASE + 4n. -/
def Mach.ringMove (m : Mach) (d : SideId) (n new : Nat) : Mach :=
  let own := if ringToHost n then 0x14 else 0x10
  let m1 := m.put d (ringPage n + own) 0 16 (new % 65536)
  let m2 := m1.put d (bar4 + 0x40008 + 4 * (n / 32)) (n % 32) 1 1
  if bitOf (m.rd d (ringPage n + 0xC)) 30 then
    m2.emit (.writeBack d (m.rd64 d (bar4 + 0x40000) + 4 * n) (BitVec.ofNat 32 (new % 65536)))
  else m2

/-- Write one entry into a module-to-host ring that has room, in the order of R162: the entry at its address, then the index. -/
def Mach.ringPost (m : Mach) (d : SideId) (n : Nat) (mk : Nat → Out) : Mach :=
  let t := m.ringTail d n
  (m.emit (mk (m.ringAddr d n t))).ringMove d n (t + 1)

/-- Set a bit of RING_STAT and raise event 52 (R164). -/
def Mach.ringError (m : Mach) (d : SideId) (n bit : Nat) : Mach :=
  (m.put d (ringPage n + 0x18) bit 1 1).raiseOn d 52

/-! ### The log (R201, R670, R155) -/

/-- Write a log entry into one log ring of a side, or count it as dropped. -/
def Mach.logRing (m : Mach) (d : SideId) (e : LogEntry) (n : Nat) : Mach :=
  if m.ringOn d n && decide (tabGet 0 m.logFilter n ≤ e.severity) then
    if m.ringFree d n = 0 then
      let m1 := m.put d (ringPage n + 0x18) 0 16 (satAt 0xFFFF (m.get d (ringPage n + 0x18) 0 16 + 1))
      m1.raiseOn d 54
    else (m.ringPost d n (fun at_ => .logEntry d n at_ e)).raiseOn d 50
  else m

/-- Make a log entry for a side's happening, keep it in MRAM and publish it on every side's log rings (R140, R670). -/
def Mach.logFor (m : Mach) (who : SideId) (unit inst code sev : Nat) (args : List Int) (cls : Nat := 0xFFFF) : Mach :=
  let e : LogEntry := { seq := m.logSeq, time := m.now, side := who, severity := sev, unit := unit, inst := inst,
                        code := code, cls := cls, args := args }
  let m1 := { m with log := e :: m.log, logSeq := (m.logSeq + 1) % 2 ^ 32 }
  m1.onSides Mach.inService (fun d t => [56, 57, 58, 59].foldl (fun t n => t.logRing d e n) t)

/-- Log a happening of the module: its entry names the active side (R201). -/
def Mach.logM (m : Mach) (unit inst code sev : Nat) (args : List Int) (cls : Nat := 0xFFFF) : Mach :=
  m.logFor m.token unit inst code sev args cls

/-- The index of a log entry that has no instance. -/
def noInst : Nat := 0xFF

/-- The CODE of a log entry to which no chapter gives one (R163): it is left open, and free. -/
def Mach.openCode (m : Mach) : Nat := Config.freeNat m.fresh 0x0A00 % 65536

/-- A state-change event that no other entry reports (R163, R567): event 1 with a log entry of UNIT 0x00 whose CODE is open. -/
def Mach.stateChange (m : Mach) (args : List Int) : Mach := (m.raise 1).logM 0x00 noInst m.openCode 0 args

/-- The registers of power stages are one for the module (R13, R440): both sides show the token holder's. -/
def stageReg (off : Nat) : Bool := decide (0xE00000 ≤ off ∧ off < 0xF80000)

/-- Registers of power stages that hold a side's own conversion of an analogue input (R21, R440): the torque, flux, speed and currents of a
motor channel, the voltage and current of an HV output, and the fuser temperatures. -/
def ownReg (off : Nat) : Bool :=
  (decide (0xE00000 ≤ off ∧ off < 0xE03800) && [0x0C, 0x10, 0x14, 0x18].contains (off % 0x400)) ||
  (decide (0xF40000 ≤ off ∧ off < 0xF40680) && [0x18, 0x1C].contains (off % 0x40)) || decide (0xF60400 ≤ off ∧ off < 0xF60420)

/-- The side whose word a register shows to the host of side `d`. -/
def Mach.regSide (m : Mach) (d : SideId) (off : Nat) : SideId := if stageReg off then m.token else d

/-! ### MGT_STAT and fault classes -/

/-- MGT_STAT (R85). -/
def mgtStat : Nat := 0x10000

/-- A bit of MGT_STAT of a side. -/
def Mach.mgt (m : Mach) (d : SideId) (bit : Nat) : Bool := bitOf (m.rd d mgtStat) bit

/-- Whether BAR4 of a side acts (R129, R133, R143). -/
def Mach.bar4On (m : Mach) (d : SideId) : Bool := m.fitted d && (m.side d).st != .down && m.mgt d 25 && !(m.side d).d3

/-- Set a bit of MGT_STAT of a side. -/
def Mach.setMgt (m : Mach) (d : SideId) (bit : Nat) (v : Bool) : Mach := m.put d mgtStat bit 1 (b2n v)

/-- Whether Drone is in charge of a side, so that the host may write firmware-owned bits (R14). -/
def Mach.droneRules (m : Mach) (d : SideId) : Bool := (m.side d).st != .down && (!m.mgt d 24 || m.mgt d 21)

/-- The settings of a fault class (R605). -/
def faultDefault : Nat → FaultCfg
  | 0x01 => ⟨10000, 3⟩
  | 0x02 => ⟨10000, 3⟩
  | 0x03 => ⟨60000, 256⟩
  | 0x04 => ⟨3600000, 3⟩
  | 0x05 => ⟨60000, 5⟩
  | 0x06 => ⟨86400000, 2⟩
  | 0x07 => ⟨600000, 3⟩
  | 0x08 => ⟨0, 1⟩
  | 0x09 => ⟨60000, 3⟩
  | 0x0A => ⟨60000, 5⟩
  | 0x0B => ⟨60000, 5⟩
  | 0x0C => ⟨0, 1⟩
  | 0x0D => ⟨600000, 3⟩
  | 0x0E => ⟨600000, 2⟩
  | 0x0F => ⟨3600000, 3⟩
  | 0x10 => ⟨60000, 20⟩
  | 0x11 => ⟨600000, 3⟩
  | 0x12 => ⟨600000, 2⟩
  | 0x13 => ⟨600000, 2⟩
  | 0x14 => ⟨0, 1⟩
  | 0x15 => ⟨86400000, 3⟩
  | 0x16 => ⟨3600000, 3⟩
  | 0x17 => ⟨1000, 64⟩
  | 0x18 => ⟨86400000, 3⟩
  | _ => ⟨0, 0⟩

/-- Classes whose THRESHOLD cannot be changed (R605). -/
def faultFixed (cls : Nat) : Bool := cls == 0x08 || cls == 0x0C || cls == 0x14

/-- The key of an instance: class, side (0 for a module class, else 1 or 2) and instance number. -/
def faultKey (cls side inst : Nat) : Nat := (cls * 4 + side) * 65536 + inst

/-- The settings in force of a class. -/
def Mach.faultSettings (m : Mach) (cls : Nat) : FaultCfg := tabGet (faultDefault cls) m.faultCfg cls

/-- An instance of a class. -/
def Mach.faultInst (m : Mach) (cls side inst : Nat) : FaultInst := tabGet ⟨0, false⟩ m.faults (faultKey cls side inst)

/-- Whether an instance is lasting. -/
def Mach.lasting (m : Mach) (cls side inst : Nat) : Bool := (m.faultInst cls side inst).lasting

/-- Clear the count and flag of one instance. -/
def Mach.clearFault (m : Mach) (cls side inst : Nat) : Mach :=
  { m with faults := sparsePut (fun _ => (⟨0, false⟩ : FaultInst)) m.faults (faultKey cls side inst) ⟨0, false⟩ }

/-- One occurrence of a fault class (R604): C grows by 1; at THRESHOLD the instance becomes lasting, event 117 is raised and
the decision is logged. The flag says whether this occurrence made it lasting. -/
def Mach.countFault (m : Mach) (cls side inst : Nat) : Mach × Bool :=
  let f := m.faultInst cls side inst
  let off := 0x1100C + 0x10 * cls
  let m0 := if side = 0 then m.addB off 1
            else
              let d := if side = 1 then SideId.a else SideId.b
              m.wr d off (m.rd d off + 1)
  if f.lasting then (m0, false)
  else
    let c := f.count + 1
    let now := decide ((m.faultSettings cls).thresh ≤ c)
    let m1 := { m0 with faults := sparsePut (fun _ => (⟨0, false⟩ : FaultInst)) m0.faults (faultKey cls side inst) ⟨c, now⟩ }
    if now then ((m1.raise 117).logM 0x0F inst 0x0608 3 [cls, side, inst] cls, true) else (m1, false)

/-! ### Capture inputs (R249 to R252) -/

/-- CAP_CFG of an input. -/
def capCfg (k : Nat) : Nat := 0xD02000 + 0x20 * k

/-- A side's copy of a capture input: each side keeps its own FIFO. -/
def capKey (d : SideId) (k : Nat) : Nat := k + 16 * d.toNat

/-- A capture input of a side. -/
def Mach.capOf (m : Mach) (d : SideId) (k : Nat) : CapState := tabGet CapState.init m.caps (capKey d k)

/-- Change a capture input of a side. -/
def Mach.modCap (m : Mach) (d : SideId) (k : Nat) (f : CapState → CapState) : Mach :=
  { m with caps := tabPut m.caps (capKey d k) (f (m.capOf d k)) }

end Sys2Proof.Machine
end

