-- ==== Sys2Proof/Machine/Mail.lean ====
section
/-!
DEFINITION. The Mouthpiece protocol (R174 to R187, R192 to R195): tags and replay, the checks every command passes in the
order of R187, and how a command is answered.
-/

namespace Sys2Proof.Machine

/-! ### Status codes (R186) -/

/-- ST_OK. -/
def stOk : Nat := 0x0000
/-- ST_UNIT_ABSENT. -/
def stUnitAbsent : Nat := 0x0001
/-- ST_BAD_OPCODE. -/
def stBadOpcode : Nat := 0x0002
/-- ST_MALFORMED. -/
def stMalformed : Nat := 0x0003
/-- ST_BAD_PARAM. -/
def stBadParam : Nat := 0x0004
/-- ST_BAD_STATE. -/
def stBadState : Nat := 0x0005
/-- ST_BUSY_NO_SPARE. -/
def stBusyNoSpare : Nat := 0x0006
/-- ST_OUT_FULL. -/
def stOutFull : Nat := 0x0007
/-- ST_IN_USE. -/
def stInUse : Nat := 0x0008
/-- ST_NOT_FOUND. -/
def stNotFound : Nat := 0x0009
/-- ST_NO_MEMORY. -/
def stNoMemory : Nat := 0x000A
/-- ST_QUEUE_FULL. -/
def stQueueFull : Nat := 0x000B
/-- ST_COMMITTED. -/
def stCommitted : Nat := 0x000C
/-- ST_CANCELLED. -/
def stCancelled : Nat := 0x000D
/-- ST_IN_PROGRESS. -/
def stInProgress : Nat := 0x000E
/-- ST_TAG_REUSED. -/
def stTagReused : Nat := 0x000F
/-- ST_BAD_TAG. -/
def stBadTag : Nat := 0x0010
/-- ST_SIDE_DOWN. -/
def stSideDown : Nat := 0x0011
/-- ST_NOT_SERVED. -/
def stNotServed : Nat := 0x0012
/-- ST_INTERLOCK. -/
def stInterlock : Nat := 0x0013
/-- ST_RAIL_FAULT. -/
def stRailFault : Nat := 0x0014
/-- ST_HOST_FAULT. -/
def stHostFault : Nat := 0x0015
/-- ST_MEM_ERROR. -/
def stMemError : Nat := 0x0016
/-- ST_CAL_DISAGREE. -/
def stCalDisagree : Nat := 0x0017
/-- ST_ROLE. -/
def stRole : Nat := 0x0018
/-- ST_AUTH_FAILED. -/
def stAuthFailed : Nat := 0x0019
/-- ST_VERIFY_FAILED. -/
def stVerifyFailed : Nat := 0x001A
/-- ST_INHIBITED. -/
def stInhibited : Nat := 0x001B
/-- ST_TIMEOUT. -/
def stTimeout : Nat := 0x001C

/-! ### Engine state codes (R188) -/

/-- The code of an engine state. -/
def engCode : EngState → Nat
  | .configured => 1
  | .armed => 2
  | .printing => 3
  | .draining => 4
  | .faulted => 5

/-- The bit of an engine state in a command's list of states, written C, A, P, D, F in the group tables. -/
def engBit : EngState → Nat
  | .configured => 0
  | .armed => 1
  | .printing => 2
  | .draining => 3
  | .faulted => 4

/-- A job is armed or draining: ARMED, PRINTING or DRAINING. -/
def engLive : EngState → Bool
  | .armed => true
  | .printing => true
  | .draining => true
  | .configured => false
  | .faulted => false

/-- States CAPDF. -/
def inCAPDF : Nat := 31
/-- States CAPD. -/
def inCAPD : Nat := 15
/-- States CAP. -/
def inCAP : Nat := 7
/-- States CF. -/
def inCF : Nat := 17
/-- State C. -/
def inC : Nat := 1

/-! ### Answers -/

/-- The opcode's digest input is its header from offset 4 to 9 and its payload (R178). -/
def msgDigest (opcode : Nat) (msg : Msg) : Word :=
  crc32c (leBytes 2 opcode ++ leBytes 1 (msg.flags % 4) ++ leBytes 1 msg.affinity ++ leBytes 2 msg.payload.length ++
    msg.payload)

/-- The side a per-side command acts on (R184). -/
def affinitySide (msg : Msg) : SideId :=
  if msg.affinity = 1 then .a else if msg.affinity = 2 then .b else msg.side

/-- The code of a side in a response's AFFINITY and in records (R174): A is 1, B is 2. -/
def sideCode : SideId → Nat
  | .a => 1
  | .b => 2

/-- The bytes of a response (R174, R175). -/
def respBytes (opcode : Nat) (msg : Msg) (by_ : SideId) (extra status detail : Nat) (payload : List Byte) : List Byte :=
  leBytes 4 msg.tag ++ leBytes 2 opcode ++ leBytes 1 (msg.flags % 4 + 0x10 + extra) ++ leBytes 1 (sideCode by_) ++
    leBytes 2 payload.length ++ leBytes 2 status ++ leBytes 4 detail ++ payload

/-- The response ring of a command ring (R142). -/
def respRing (n : Nat) : Nat := if n = 60 then 61 else 8 + n

/-- The statuses whose responses are not stored (R178). -/
def notStored (status : Nat) : Bool :=
  status == stMalformed || status == stBadTag || status == stTagReused || status == stInProgress

/-- Hand a response to its transport (R154, R157, R202): to the response ring when it has room and, for a command whose fetch
is recorded, only when the ring has stayed enabled since. -/
def Mach.deliver (m : Mach) (side : SideId) (via : Via) (fl : Option Flight) (bytes : List Byte) : Mach :=
  match via with
  | .i2c => m.emit (.i2cReply side bytes)
  | .udp => m.emit (.udpReply side bytes)
  | .ring n =>
    let r := respRing n
    let parts := chunks 64 4 bytes
    let stayed := match fl with
      | some f => f.epoch == ((m.side side).ringAux r).epoch
      | none => true
    if m.ringOn side r && stayed && decide (parts.length ≤ m.ringFree side r) then
      let t := m.ringTail side r
      let m1 := (parts.zipIdx).foldl (fun t' p => t'.emit (.ringEntry side r (m.ringAddr side r (t + p.2)) p.1)) m
      (m1.ringMove side r (t + parts.length)).raiseOn side (if n = 60 then 51 else 48)
    else m

/-- Answer a command: the response is stored under its tag (R178) before it is posted (R139), and the command is no longer
unanswered. -/
def Mach.respond (m : Mach) (opcode : Nat) (msg : Msg) (by_ : SideId) (extra status detail : Nat) (payload : List Byte) :
    Mach :=
  let bytes := respBytes opcode msg by_ extra status detail payload
  let fl := m.flights.find? (fun f => f.tag == msg.tag)
  if notStored status then m.deliver msg.side msg.via none bytes
  else
    let m1 := { m with
      tags := ((⟨msg.tag, msgDigest opcode msg, bytes⟩ : TagRec) :: m.tags).take 4096
      flights := m.flights.filter (fun f => f.tag != msg.tag) }
    m1.deliver msg.side msg.via fl bytes

/-- What the tag decides before any other check (R179). -/
inductive TagVerdict where
  | new
  | badTag
  | replay (bytes : List Byte)
  | reused
  | inProgress
  | waits
  deriving DecidableEq, Repr

/-- Whether a command that is fetched may begin (R137, R157): the active side has given it its place, and no command before it in that order,
or before it on its ring, has still to begin. The latest stands first. -/
def Mach.mayBegin (m : Mach) (f : Flight) : Bool :=
  let fwd := m.mgt f.side 29
  (f.ordered || !fwd) && (((m.flights.dropWhile (fun g => g.tag != f.tag)).drop 1).all (fun g =>
    g.begun || !g.ordered || !(fwd || (g.side == f.side && g.via == f.via))))

/-- The decision of R179 on a command. A command that has been fetched and has not begun goes on as new when its turn comes. -/
def Mach.tagVerdict (m : Mach) (opcode : Nat) (msg : Msg) : TagVerdict :=
  if msg.tag = 0 then .badTag
  else
    match m.tags.find? (fun t => t.tag == msg.tag) with
    | some t => if t.digest = msgDigest opcode msg then .replay t.resp else .reused
    | none =>
      match m.flights.find? (fun f => f.tag == msg.tag) with
      | some f =>
        if f.begun || f.digest != msgDigest opcode msg then .inProgress else if m.mayBegin f then .new else .waits
      | none => .new

/-- A recorded response with REPLAY set (R175, R179). -/
def markReplay (bytes : List Byte) : List Byte :=
  bytes.mapIdx (fun i b => if i = 6 then b ||| 0x20 else b)

/-- A command begins: it counts as fetched and not answered. -/
def Mach.begin_ (m : Mach) (opcode : Nat) (msg : Msg) : Mach :=
  match m.flights.find? (fun f => f.tag == msg.tag) with
  | some _ => { m with flights := m.flights.map (fun f => if f.tag = msg.tag then { f with begun := true } else f) }
  | none =>
    let ep := match msg.via with
      | .ring n => ((m.side msg.side).ringAux (respRing n)).epoch
      | .i2c => 0
      | .udp => 0
    { m with flights := { tag := msg.tag, side := msg.side, via := msg.via, opcode := opcode, epoch := ep,
                          digest := msgDigest opcode msg, begun := true } :: m.flights }

/-! ### Commands -/

/-- The fixed part of a command's row in its group table: opcode, least and greatest payload length, the states that accept
it (R192), whether it is per-side (S) and whether Drone serves it (M). -/
structure CmdDef where
  opcode  : Nat
  lenMin  : Nat
  lenMax  : Nat
  states  : Nat
  perSide : Bool := false
  managed : Bool := false
  deriving DecidableEq, Repr

/-- The path a W command needs (R193): the gap in microseconds, its stations, and whether the path is idle or has a spare. -/
structure WNeed where
  gap      : Nat
  stations : List Nat
  free     : Bool
  deriving DecidableEq, Repr

/-- What a command comes to in a state: its refusals in the order of R187, and its effect and answer when none applies. -/
structure Plan where
  absent  : Bool := false
  down    : Bool := false
  role    : Option Nat := none
  param   : Option Nat := none
  state   : Bool := false
  refuse  : Option (Nat × Nat) := none
  need    : Option WNeed := none
  status  : Nat := 0
  detail  : Nat := 0
  reply   : List Byte := []
  later   : Option AwaitKind := none
  act     : Mach → Mach := id
  after   : Mach → Mach := id

/-- DETAIL of ST_BAD_STATE (R186): engine state and SEQ STATE. -/
def Mach.stateDetail (m : Mach) : Nat := engCode m.eng + 256 * m.get .a 0x40004 28 4

/-- The first refusal of a command in the order of R187, after the header and tag checks. -/
def Mach.refusal (m : Mach) (c : CmdDef) (msg : Msg) (p : Plan) : Option (Nat × Nat) :=
  let other := match msg.via with
    | .ring n => n == 60
    | .i2c => true
    | .udp => true
  let named := msg.affinity != 0
  if other && (!c.managed || (m.mgt msg.side 21 && c.opcode / 256 != 0x0D)) then some (stNotServed, 0)
  else if (named && !m.fitted (affinitySide msg)) || p.absent then some (stUnitAbsent, 0)
  else if (named && !m.inService (affinitySide msg)) || p.down then some (stSideDown, 0)
  else match p.role with
    | some r => some (stRole, r)
    | none =>
      match p.param with
      | some off => some (stBadParam, off)
      | none =>
        if !hasBit c.states (engBit m.eng) || p.state then some (stBadState, m.stateDetail)
        else p.refuse

/-- The first header byte that makes a message malformed (R177), where one does. -/
def malformedAt (c : CmdDef) (msg : Msg) : Option Nat :=
  if 4 ≤ msg.flags then some 6
  else if 2 < msg.affinity then some 7
  else if msg.payload.length < c.lenMin ∨ c.lenMax < msg.payload.length then some 8
  else none

/-- VALIDATE (R175). -/
def isValidate (msg : Msg) : Bool := hasBit msg.flags 1

/-- DEFER_OK (R175). -/
def isDeferOk (msg : Msg) : Bool := hasBit msg.flags 0

/-- The side that produces a command's result (R174, R184). -/
def Mach.resultSide (m : Mach) (c : CmdDef) (msg : Msg) : SideId := if c.perSide then affinitySide msg else m.token

/-- Refuse a command that has begun: it is answered, and so no longer unanswered even where its response is not stored (R157, R178).
DESIGN CHOICE: R7 speaks of a refused command's own log entry and no chapter gives its code; the model makes none. -/
def Mach.refuse (m : Mach) (opcode : Nat) (msg : Msg) (by_ : SideId) (status detail : Nat) : Mach :=
  let t := m.respond opcode msg by_ 0 status detail []
  { t with flights := t.flights.filter (fun f => f.tag != msg.tag) }

/-- Carry out an accepted command: act, then answer now or wait. -/
def Mach.carryOut (m : Mach) (c : CmdDef) (msg : Msg) (extra : Nat) (p : Plan) : Mach :=
  match p.later with
  | some k =>
    p.act { m with awaits := m.awaits ++ [(⟨k, c.opcode, msg, decide (0 < extra)⟩ : Await)] }
  | none =>
    p.after ((p.act m).respond c.opcode msg (m.resultSide c msg) extra p.status p.detail p.reply)

/-- Run a Mouthpiece command: R177, R179, the refusals in the order of R187, deferral (R193, R674, R195), VALIDATE (R175),
then its effect. -/
def Mach.runCmd (m : Mach) (c : CmdDef) (msg : Msg) (plan : Mach → Plan) : Mach :=
  let by_ := m.resultSide c msg
  match malformedAt c msg with
  | some off => m.respond c.opcode msg by_ 0 stMalformed off []
  | none =>
    match m.tagVerdict c.opcode msg with
    | .badTag => m.respond c.opcode msg by_ 0 stBadTag 0 []
    | .reused => m.respond c.opcode msg by_ 0 stTagReused 0 []
    | .inProgress => m.respond c.opcode msg by_ 0 stInProgress 0 []
    | .waits => m
    | .replay bytes => m.deliver msg.side msg.via none (markReplay bytes)
    | .new =>
      let m0 := m.begin_ c.opcode msg
      let p := plan m0
      match m0.refusal c msg p with
      | some (st, det) => m0.refuse c.opcode msg by_ st det
      | none =>
        let busy := match p.need with
          | some n => !n.free && engLive m0.eng
          | none => false
        let gap := (p.need.map WNeed.gap).getD 0
        if busy then
          if isDeferOk msg then
            if isValidate msg then m0.respond c.opcode msg by_ 0x40 stOk gap []
            else if m0.deferred.length < 16 then
              { m0 with deferred := m0.deferred ++
                [(⟨c.opcode, msg, gap, (p.need.map WNeed.stations).getD []⟩ : Deferred)] }
            else m0.respond c.opcode msg by_ 0 stBusyNoSpare 0 []
          else m0.respond c.opcode msg by_ 0 stBusyNoSpare gap []
        else if isValidate msg then m0.respond c.opcode msg by_ 0 p.status p.detail p.reply
        else m0.carryOut c msg 0 p

/-- Answer every waiting command of a kind. -/
def Mach.answerAwaits (m : Mach) (is : AwaitKind → Bool) (status detail : Nat) (payload : AwaitKind → List Byte) : Mach :=
  let hit := m.awaits.filter (fun w => is w.kind)
  let m1 := { m with awaits := m.awaits.filter (fun w => !is w.kind) }
  hit.foldl (fun t w => t.respond w.opcode w.msg t.token (if w.deferred then 0x40 else 0) status detail (payload w.kind)) m1

/-- Answer the waiting command of a tag. -/
def Mach.answerTag (m : Mach) (tag status detail : Nat) (payload : List Byte) : Mach :=
  match m.awaits.find? (fun w => w.msg.tag == tag) with
  | none => m
  | some w =>
    ({ m with awaits := m.awaits.filter (fun v => v.msg.tag != tag) }).respond w.opcode w.msg m.token
      (if w.deferred then 0x40 else 0) status detail payload

end Sys2Proof.Machine
end

