-- ==== Sys2Proof/Machine/Drives.lean ====
section
/-!
DEFINITION. What is shared by the drives and the process outputs: access to motor, stepper, HV, fuser and loop state, how each
is switched off, and how a job takes motors and HV outputs and gives them back (R447, R463, R483, R520, R530).
-/

namespace Sys2Proof.Machine

/-! ### Numbers whose rounding the spec does not give -/

/-- A quotient that the spec gives no rounding for: exact where it divides, otherwise the integer below or above it. -/
def Mach.quot (m : Mach) (tag : Nat) (a b : Int) : Int :=
  let q := a / b
  if a % b = 0 || b = 0 then q else if Config.freeBool m.fresh tag then q + 1 else q

/-- Change the drives. -/
def Mach.modDrv (m : Mach) (f : Drives → Drives) : Mach := { m with drv := f m.drv }

/-- The payload offset of the first check that fails. -/
def firstBad (xs : List (Bool × Nat)) : Option Nat := (xs.find? (fun x => x.1)).map Prod.snd

/-- The host buffer that a reference at a payload offset names (R210): none where it could not be read. -/
def hostBuf (msg : Msg) (off : Nat) : Option (List Byte) :=
  let len := numAt msg.payload (off + 8) 4
  match msg.buf with
  | some b => if len ≤ b.length then some (b.take len) else none
  | none => if len = 0 then some [] else none

/-! ### Station inhibits (R607, R617) -/

/-- A change of one inhibit bit of MGT_INHIBIT: event 118, the log entry, and the bit that tells of the change (R617). -/
def Mach.setInhibit (m : Mach) (bit s : Nat) (on : Bool) : Mach :=
  if m.bitA 0x10100 bit = on then m
  else (((m.setB 0x10100 bit on).setB 0x10100 (24 + s) true).raise 118).logM 0x0F s 0x0606 2 [b2n on]

/-- Bring the station inhibits in line with the lasting classes RAIL_FAULT, PXC_LOCK and POLY_ROTOR_LOST (R605, R607). -/
def Mach.refreshInhibit (m : Mach) : Mach :=
  (List.range 6).foldl (fun t s => t.setInhibit s s (t.lasting 4 0 s || t.lasting 5 0 s || t.lasting 7 0 s)) m

/-- Whether a station takes no new page (R607, R641). -/
def Mach.inhibited (m : Mach) (s : Nat) : Bool := m.bitA 0x10100 s || m.bitA 0x10100 (8 + s)

/-! ### Sweeps of a station (R377, R390, R391) -/

/-- The screening set of a station. -/
def Mach.stnSet (m : Mach) (s : Nat) : List Byte := (tabGet Station.idle m.stns s).set

/-- PASSES of a set. -/
def setPasses (set : List Byte) : Nat := max 1 (numAt set 8 1)

/-- A, the lines that a sweep advances. -/
def setAdvance (set : List Byte) : Nat := 32 / setPasses set

/-- FACETS of a station's polygon. -/
def Mach.facets (m : Mach) (s : Nat) : Nat := m.getA (0xC00008 + 0x10000 * s) 28 4

/-- U, the used facets. -/
def Mach.usedFacets (m : Mach) (s : Nat) (set : List Byte) : Nat :=
  ((List.range (m.facets s)).filter (fun f => hasBit (numAt set 18 2) f)).length

/-! ### Motors -/

/-- The registers of a motor channel. -/
def mdrBase (n : Nat) : Nat := 0xE00000 + 0x400 * n

/-- A motor channel. -/
def Mach.motorOf (m : Mach) (n : Nat) : Motor := tabGet Motor.init m.drv.motors n

/-- Change a motor channel. -/
def Mach.modMotor (m : Mach) (n : Nat) (f : Motor → Motor) : Mach :=
  m.modDrv (fun d => { d with motors := tabPut d.motors n (f (m.motorOf n)) })

/-- Whether a motor channel is fitted (R440): the W7-S has no polygon channels. -/
def Mach.hasMotor (m : Mach) (n : Nat) : Bool := decide (n < motorsOf m.part)

/-- Whether a channel is a POLYGON channel. -/
def isPoly (n : Nat) : Bool := decide (8 ≤ n)

/-- MDR_STAT.STATE. -/
def Mach.motorState (m : Mach) (n : Nat) : Nat := m.getA (mdrBase n) 28 4

/-- A log entry of the motor drives. -/
def Mach.logMotor (m : Mach) (n code sev : Nat) (cls : Nat := 0xFFFF) : Mach := m.logM 0x0E n code sev [] cls

/-- Set a motor's state; reaching RUN or OFF raises event 89 (R468). -/
def Mach.setMotor (m : Mach) (n st : Nat) : Mach :=
  if m.motorState n = st then m
  else
    let m1 := m.putB (mdrBase n) 28 4 st
    if st = 4 then (m1.raise 89).logMotor n 0x000F 0
    else if st = 0 then (m1.raise 89).logMotor n 0x0010 0
    else m1

/-- Freewheel or drive the bridge of a motor. -/
def Mach.freewheel (m : Mach) (n : Nat) (on : Bool) : Mach := m.setB (mdrBase n) 10 on

/-- The torque demand T* of a motor, in 1/4096 of T_LIM, limited to ±T_LIM (R444). It is 0 while REGEN_INHIBIT forces it. -/
def Mach.setTorque (m : Mach) (n : Nat) (t : Int) : Mach :=
  let speed := signedOf 32 (m.rdA (mdrBase n + 0xC)).toNat
  let t1 := clampInt (-4096) 4096 t
  let against := decide ((t1 < 0 ∧ 0 < speed) ∨ (0 < t1 ∧ speed < 0))
  let inh := m.bitA 0xE08000 12 && against
  (m.setB (mdrBase n) 11 inh).putB (mdrBase n + 0x10) 16 16 (unsignedOf 16 (if inh then 0 else t1))

/-- The command after the ramp, in 1/10 000 rpm, and MDR_CMD in 1/16 rpm (R445). -/
def Mach.setCmd (m : Mach) (n : Nat) (cmd : Int) : Mach :=
  (m.modMotor n (fun x => { x with cmd := cmd })).wrB (mdrBase n + 8) (BitVec.ofInt 32 (cmd / 625))

/-- A motor reaches OFF: freewheeling, with no command. -/
def Mach.motorOff (m : Mach) (n : Nat) : Mach :=
  ((((m.freewheel n true).setTorque n 0).setCmd n 0).modMotor n (fun x => { x with
    spin := false, tripped := false, encWait := false, clamped := false, stopping := false })).setMotor n 0

/-- A motor enters FAULT with its bridge freewheeling (R454, R456). -/
def Mach.motorFault (m : Mach) (n : Nat) : Mach :=
  (((m.freewheel n true).setTorque n 0).modMotor n (fun x => { x with tripped := false, encWait := false })).setMotor n 6

/-- A polygon enters CATCH: it listens at a start (R450 step 1), and goes into catch-spin at once where it lost its rotor or its bridge
freewheeled (R451, R452). -/
def Mach.motorCatch (m : Mach) (n : Nat) (spin : Bool) : Mach :=
  ((m.freewheel n true).modMotor n (fun x => { x with
    spin := spin, crossings := 0, seen := false, quiet := false, at1500 := false, confLow := 0, confHigh := 0 })).setMotor n 3

/-- A motor starts from OFF (R450, R463): an encoder motor runs at once, a polygon looks for its rotation first. -/
def Mach.motorStart (m : Mach) (n : Nat) : Mach :=
  if isPoly n then m.motorCatch n false else (m.freewheel n false).setMotor n 4

/-- A motor takes a speed source (R463). An OFF channel starts. -/
def Mach.motorSource (m : Mach) (n mode : Nat) (value : Int) : Mach :=
  let m1 := (m.putB (mdrBase n) 24 3 mode).modMotor n (fun x => { x with value := value, stopping := false })
  let m2 := if mode = 0 then m1.setB (mdrBase n) 15 false else m1
  let st := m.motorState n
  if st = 0 then m2.motorStart n
  else if st = 5 then m2.setMotor n 4
  else m2

/-- MOTOR_STOP (R463): a running channel ramps down; one that has not reached RUN freewheels at once. -/
def Mach.motorStop (m : Mach) (n : Nat) : Mach :=
  let st := m.motorState n
  if st = 4 then m.setMotor n 5
  else if st = 1 || st = 2 || st = 3 then m.motorOff n
  else m

/-- Take a motor for the armed job (R447): curve mode fed by line speed. -/
def Mach.takeMotor (m : Mach) (n : Nat) : Mach :=
  let x := m.motorOf n
  let keep := (m.getA (mdrBase n) 24 3, x.value, m.motorState n == 0)
  ((m.modMotor n (fun y => { y with saved := some keep })).setB (mdrBase n) 9 true).motorSource n 2 0

/-- Give the job's motors back: they return to their previous mode (R447). -/
def Mach.releaseMotors (m : Mach) : Mach :=
  m.drv.motors.foldl (fun t e =>
    match e.2.saved with
    | none => t
    | some (mode, value, wasOff) =>
      let n := e.1
      let t1 := (t.setB (mdrBase n) 9 false).modMotor n (fun x => { x with saved := none, value := value })
      let t2 := (t1.putB (mdrBase n) 24 3 mode).setB (mdrBase n) 12 false
      if wasOff then t2.motorStop n else t2) m

/-- Every running bridge freewheels and the motors coast with zero torque demand (R107, R109). -/
def Mach.motorsCoast (m : Mach) : Mach :=
  (List.range (motorsOf m.part)).foldl (fun t n =>
    if t.motorState n = 0 || t.motorState n = 6 then t else t.motorOff n) m

/-! ### Steppers -/

/-- The registers of a stepper channel. -/
def stpBase (n : Nat) : Nat := 0xE80000 + 0x100 * n

/-- A stepper channel. -/
def Mach.stepOf (m : Mach) (n : Nat) : Stepper := tabGet Stepper.init m.drv.steps n

/-- Change a stepper channel. -/
def Mach.modStep (m : Mach) (n : Nat) (f : Stepper → Stepper) : Mach :=
  m.modDrv (fun d => { d with steps := tabPut d.steps n (f (m.stepOf n)) })

/-- STP_STAT.STATE. -/
def Mach.stepState (m : Mach) (n : Nat) : Nat := m.getA (stpBase n) 28 4

/-- A log entry of the steppers. -/
def Mach.logStep (m : Mach) (n code sev : Nat) (args : List Int := []) (cls : Nat := 0xFFFF) : Mach :=
  m.logM 0x0E n code sev args cls

/-- Answer the waiting STP_MOVE or STP_GEAR of a channel with an end cause (R479), and raise event 90. -/
def Mach.stepAnswer (m : Mach) (n : Nat) (gear : Bool) (cause : Nat) : Mach :=
  let is (k : AwaitKind) : Bool := if gear then k == .stpGear n else k == .stpMove n
  if m.awaits.any (fun w => is w.kind) then
    ((m.answerAwaits is stOk cause (fun _ => [])).raise 90).logStep n 0x0101 0 [cause]
  else m

/-- A stepper comes to rest: no steps, at the present position. In HOLD a MOTOR_STOP that waits is answered (R479). -/
def Mach.stepRest (m : Mach) (n st : Nat) : Mach :=
  let m1 := m.modStep n (fun x => { x with v := 0, a := 0, ivl := 0, homing := none, home := false })
  let m2 := ((m1.wrB (stpBase n + 0x18) 0).wrB (stpBase n + 0x1C) 0).putB (stpBase n) 28 4 st
  if st = 1 && m2.awaits.any (fun w => w.kind == .stpStop n) then m2.answerAwaits (fun k => k == .stpStop n) stOk 0 (fun _ => [])
  else m2

/-- A stepper leaves its gear. -/
def Mach.stepUngear (m : Mach) (n : Nat) : Mach :=
  let m1 := m.modStep n (fun x => { x with gear := none, pending := none })
  (((m1.setB (stpBase n + 0x70) 31 false).setB (stpBase n) 14 false).setB (stpBase n) 13 false)

/-- A stepper's bridge switches off, and its commands end with a cause (R482, R483). -/
def Mach.stepDead (m : Mach) (n st cause : Nat) : Mach :=
  let m1 := ((m.stepRest n st).stepUngear n).setB (stpBase n) 15 false
  ((m1.setB (stpBase n) 10 false).stepAnswer n false cause).stepAnswer n true cause

/-- The bridges of every stepper switch off (R483). A channel locked in FAULT stays there until STP_CONFIG (R474, R484). -/
def Mach.steppersOff (m : Mach) : Mach :=
  (List.range (steppersOf m.part)).foldl (fun t n =>
    let t1 := (t.stepDead n (if t.stepState n = 5 && t.bitA (stpBase n + 4) 31 then 5 else 0) 5).setB (stpBase n + 4) 3 true
    (t1.raise 92).logStep n 0x0105 1) m

/-! ### Control loops -/

/-- The reset limits of a fixed loop's output (R494). -/
def loopLimits (n : Nat) : Rat × Rat :=
  if n < 14 then (-1, 1)
  else if n < 22 then (-50, 50)
  else if n < 28 then (-10000, 10000)
  else if n < 54 then
    (if 30 ≤ n ∧ (n - 30) % 4 = 3 then (-1, 1) else (0, 1))
  else if n < 58 then (0, 1)
  else if n < 64 then (0, 4)
  else (-1 / 2, 1 / 2)

/-- The reset gains KP, KI, KD, TF of a fixed loop (R494). -/
def loopGains (n : Nat) : Rat × Rat × Rat × Rat :=
  if n < 14 then (2 / 1000, 5 / 100, 0, 0)
  else if n < 22 then (600, 0, 0, 0)
  else if n < 28 then (2, 400, 0, 0)
  else if n < 54 then (1 / 2, 400, 0, 0)
  else if n < 58 then (4 / 100, 4 / 10000, 2 / 10, 2)
  else if n < 64 then (1 / 2, 1 / 100, 0, 0)
  else (2 / 10, 5 / 100, 0, 0)

/-- The trigger, its argument, DIV and PERIOD of a fixed loop (R494). -/
def loopTrigger (n : Nat) : Nat × Nat × Nat × Nat :=
  if n < 14 then (1, 0, 0, 100)
  else if n < 22 then (0, 0, 0, 0)
  else if n < 28 then (2, n - 22, 0, 0)
  else if n < 54 then (1, 0, 0, 50)
  else if n < 58 then (1, 0, 0, 20000)
  else if n < 64 then (1, 0, 0, 100000)
  else (3, n - 64, 0, 0)

/-- The bytes of a binary32 value. -/
def f32Bytes (q : Rat) : List Byte := leBytes 4 (f32 q).toNat

/-- The descriptor of a loop at a side's start (R494, R495): fuser zone loops carry a first-order model, the other fixed loops
none, and free loops are unused. What the dosing stepper of a TC loop is at reset is not given; it is taken as channel 0. -/
def loopReset (n : Nat) : List Byte :=
  if 70 ≤ n then List.replicate 64 0
  else
    let t := loopTrigger n
    let g := loopGains n
    let l := loopLimits n
    let fuser := decide (54 ≤ n ∧ n < 58)
    leBytes 1 t.1 ++ leBytes 1 t.2.1 ++ leBytes 2 t.2.2.1 ++ leBytes 4 t.2.2.2 ++ leBytes 2 0 ++
      leBytes 2 (if 58 ≤ n ∧ n < 64 then 0x100 else 0) ++ leBytes 1 0 ++ leBytes 1 (b2n fuser) ++
      leBytes 1 (if fuser then 2 else 0) ++ leBytes 1 (if fuser then 250 else 0) ++
      f32Bytes g.1 ++ f32Bytes g.2.1 ++ f32Bytes g.2.2.1 ++ f32Bytes g.2.2.2 ++ f32Bytes l.1 ++ f32Bytes l.2 ++
      leBytes 4 0 ++
      (if fuser then f32Bytes 250 ++ f32Bytes 60 ++ leBytes 4 0 ++ f32Bytes 30 ++ f32Bytes 25 else leBytes 20 0)

/-- A loop at a side's start: fixed loops are IDLE, free ones UNUSED (R512). -/
def Loop.init (n : Nat) : Loop :=
  { desc := loopReset n, st := if n < 70 then 4 else 0, sat := false, held := false, disagree := false, sp := 0, r := 0,
    y := 0, u := 0, i := 0, d := 0, m := 0, w := 0, bad := 0, good := 0, samples := 0, inner := 0, ref := 0, loaded := false,
    spGiven := false }

/-- A loop. -/
def Mach.loopOf (m : Mach) (n : Nat) : Loop := tabGet (Loop.init n) m.drv.loops n

/-- Change a loop. -/
def Mach.modLoop (m : Mach) (n : Nat) (f : Loop → Loop) : Mach :=
  m.modDrv (fun d => { d with loops := tabPut d.loops n (f (m.loopOf n)) })

/-- A loop's binding ceases to apply: it is IDLE and its output has no effect (R499). -/
def Mach.loopIdle (m : Mach) (n : Nat) : Mach :=
  if (m.loopOf n).st = 1 || (m.loopOf n).st = 2 then m.modLoop n (fun l => { l with st := 4 }) else m

/-! ### HV outputs -/

/-- The registers of an HV output. -/
def hvBase (h : Nat) : Nat := 0xF40000 + 0x40 * h

/-- HVG_STAT.STATE. -/
def Mach.hvState (m : Mach) (h : Nat) : Nat := m.getA (hvBase h) 29 3

/-- An HV output takes a state in which its drive is 0 and its loop is IDLE. -/
def Mach.hvRest (m : Mach) (h st : Nat) : Mach := ((m.putB (hvBase h) 29 3 st).putB (hvBase h) 27 2 0).loopIdle (28 + h)

/-- Every HV output that runs takes a state (R107, R109, R520). -/
def Mach.hvAll (m : Mach) (st : Nat) : Mach :=
  (List.range (hvOf m.part)).foldl (fun t h => if t.hvState h = 0 then t else t.hvRest h st) m

/-! ### Fuser channels -/

/-- The registers of a fuser channel. -/
def fsrBase (c : Nat) : Nat := 0xF60000 + 0x40 * c

/-- FSR_STAT.STATE. -/
def Mach.fsrState (m : Mach) (c : Nat) : Nat := m.getA (fsrBase c) 29 3

/-- A fuser channel. -/
def Mach.fsrOf (m : Mach) (c : Nat) : FuserCh := tabGet FuserCh.init m.drv.fusers c

/-- Change a fuser channel. -/
def Mach.modFsr (m : Mach) (c : Nat) (f : FuserCh → FuserCh) : Mach :=
  m.modDrv (fun d => { d with fusers := tabPut d.fusers c (f (m.fsrOf c)) })

/-- A fuser channel stops firing and takes a state; its relay opens and its loop is IDLE. -/
def Mach.fsrRest (m : Mach) (c st : Nat) : Mach :=
  (((m.putB (fsrBase c) 29 3 st).putB (fsrBase c) 26 2 0).modFsr c (fun f => { f with openRun := 0 })).loopIdle (54 + c)

/-- Every fuser channel that runs is switched off (R107). -/
def Mach.fusersOff (m : Mach) : Mach :=
  (List.range (fusersOf m.part)).foldl (fun t c =>
    if t.fsrState c = 1 || t.fsrState c = 2 || t.fsrState c = 5 then t.fsrRest c 0 else t) m

/-! ### What a job takes (R447, R514) -/

/-- The HV outputs of a job's stations, with outputs 0 and 1 (R514). -/
def jobOutputs (p : Part) (stations : Nat) : List Nat :=
  [0, 1] ++ ((bitsOf stations (stationsOf p)).flatMap (fun s => [2 + 4 * s, 3 + 4 * s, 4 + 4 * s, 5 + 4 * s]))

/-- The motors that R447 names for a job: the drum of each station, the polygon of each laser station, the belt. -/
def jobMotors (stations led : Nat) : List Nat :=
  bitsOf stations 6 ++ ((bitsOf stations 6).filter (fun s => !hasBit led s)).map (fun s => 8 + s) ++ [6]

/-- Mark the HV outputs of the armed job, or clear the marks. -/
def Mach.ownOutputs (m : Mach) (hs : List Nat) : Mach :=
  (List.range (hvOf m.part)).foldl (fun t h => t.setB (hvBase h) 26 (hs.contains h)) m

/-- The job gives back its motors, HV outputs and density loops (R447, R499, R514). -/
def Mach.releaseDrives (m : Mach) : Mach :=
  (List.range 6).foldl (fun t s => t.loopIdle (64 + s)) ((m.releaseMotors).ownOutputs [])

/-- Everything that input loss switches off (R107): HV, fuser, steppers, laser drive; the motors coast. -/
def Mach.outputsOff (m : Mach) : Mach :=
  let m1 := { m with ilk := { m.ilk with laserEnabled := false } }
  (((m1.hvAll 0).fusersOff).steppersOff).motorsCoast

end Sys2Proof.Machine
end

