-- ==== Sys2Proof/Machine/Beams.lean ====
section
/-!
DEFINITION. The emitters of a laser station: which beams can write, and which spare or other pass takes a beam's lines (R392 to
R396).
-/

namespace Sys2Proof.Machine

/-! ### Stations -/

/-- The registers of a station in SCB. -/
def scbBase (s : Nat) : Nat := 0x600000 + 0x10000 * s

/-- The registers of a station in PXC. -/
def pxcBase (s : Nat) : Nat := 0xC00000 + 0x10000 * s

/-- The registers of an emitter. -/
def beamBase (s b : Nat) : Nat := 0xC01000 + 0x10000 * s + 0x10 * b

/-- A station. -/
def Mach.stnOf (m : Mach) (s : Nat) : Station := tabGet Station.idle m.stns s

/-- Change a station. -/
def Mach.modStn (m : Mach) (s : Nat) (f : Station → Station) : Mach := { m with stns := tabPut m.stns s (f (m.stnOf s)) }

/-! ### Emitters -/

/-- The cross-scan position of spare `k` (R392). -/
def setSparePos (set : List Byte) (k : Nat) : Nat := numAt set (20 + k) 1

/-- Whether a beam is out of service as planned or declared failed (R393). -/
def Mach.beamOut (m : Mach) (s b : Nat) : Bool := m.bitA (scbBase s + 0x10) b || m.bitA (scbBase s + 0x14) b

/-- Whether an emitter may be assigned lines (R438). -/
def Mach.beamEnabled (m : Mach) (s b : Nat) : Bool := m.bitA (beamBase s b) 31

/-- Whether spare `k` stands in (R408). -/
def Mach.spareOn (m : Mach) (s k : Nat) : Bool := m.bitA (scbBase s + 0x18) (7 + 8 * k)

/-- The beam that spare `k` replaces. -/
def Mach.spareBeam (m : Mach) (s k : Nat) : Nat := m.getA (scbBase s + 0x18) (8 * k) 5

/-- The user-layer key of an entry (R539). -/
def calKey (id side inst index : Nat) : Nat := id + 256 * side + 65536 * inst + 16777216 * index

/-- Whether a spare is barred from substitution: failed (R429), under a lasting action (R550), or being calibrated. -/
def Mach.spareBarred (m : Mach) (s k : Nat) : Bool :=
  hasBit (m.stnOf s).spareFail k ||
    m.awaits.any (fun w => match w.kind with
      | .calRun id _ => (id % 256 == 2 || id % 256 == 3) && fieldOf (BitVec.ofNat 32 id) 8 3 == s && hasBit id (16 + k)
      | _ => false) ||
    [0, 1, 2].any (fun d => m.cal.barred.contains (calKey 2 d s (32 + k)) || m.cal.barred.contains (calKey 3 d s (32 + k)))

/-- The first spare that can stand in for beam `b` now (R392, R394 step 1). -/
def Mach.standFor (m : Mach) (s b : Nat) : Option Nat :=
  let set := m.stnSet s
  let a := setAdvance set
  [0, 1].find? (fun k => m.beamEnabled s (32 + k) && !m.spareOn s k && !m.spareBarred s k &&
    decide (32 ≤ setSparePos set k) && (setSparePos set k - b) % a == 0)

/-- The spare that stands in for beam `b`. -/
def Mach.spareFor (m : Mach) (s b : Nat) : Option Nat := [0, 1].find? (fun k => m.spareOn s k && m.spareBeam s k == b)

/-- Whether a beam's lines find an emitter of its own pass: the beam itself, or a spare. -/
def Mach.beamWrites (m : Mach) (s b : Nat) : Bool :=
  (m.beamEnabled s b && !m.beamOut s b) || (m.spareFor s b).isSome

/-- Set a spare's substitution (R408). It begins with the spare's line of the next sweep, and ends with the spare's line of the
sweep before (R393, R396). -/
def Mach.setSpare (m : Mach) (s k : Nat) (on : Bool) (b : Nat) : Mach :=
  let m1 := (m.putB (scbBase s + 0x18) (8 * k) 5 b).setB (scbBase s + 0x18) (7 + 8 * k) on
  let set := m.stnSet s
  let a : Int := setAdvance set
  m1.modStn s (fun t =>
    let at_ := t.sweep * a + setSparePos set k
    if on then
      { t with subs := t.subs ++ [(⟨k, b, at_, none, m.bitA (scbBase s + 0x14) b⟩ : Sub)] }
    else { t with subs := t.subs.map (fun u => if u.spare = k ∧ u.last = none then { u with last := some (at_ - a) } else u) })

/-- Give every beam that is out of service a spare where one can stand in (R394 step 1), beam 0 first. -/
def Mach.assignSpares (m : Mach) (s : Nat) : Mach :=
  (List.range 32).foldl (fun t b =>
    if t.beamOut s b && (t.spareFor s b).isNone then
      match t.standFor s b with
      | some k => t.setSpare s k true b
      | none => t
    else t) m

/-- A beam returns to service (R396): its substitution ends and the spare is free for another beam. -/
def Mach.beamBack (m : Mach) (s b : Nat) : Mach :=
  if m.beamOut s b then m
  else
    let m1 := match m.spareFor s b with
      | some k => m.setSpare s k false 0
      | none => m
    m1.assignSpares s

/-- The sweeps at which a beam failed or was taken out are kept while it is so (R393). -/
def Mach.markSweeps (m : Mach) (s : Nat) : Mach :=
  let failed := bitsOf (m.rdA (scbBase s + 0x14)).toNat 32
  let out := bitsOf (m.rdA (scbBase s + 0x10)).toNat 32
  m.modStn s (fun t =>
    let keep (old : Tab Int) (bs : List Nat) : Tab Int := bs.foldl (fun x b => tabPut x b (tabGet t.sweep old b)) []
    { t with failedAt := keep t.failedAt failed, outAt := keep t.outAt out })

/-- Take a beam out of service as planned (R393). -/
def Mach.planOut (m : Mach) (s b : Nat) : Mach := ((m.setB (scbBase s + 0x10) b true).markSweeps s).assignSpares s

/-- End a planned outage of a beam. -/
def Mach.planBack (m : Mach) (s b : Nat) : Mach := ((m.setB (scbBase s + 0x10) b false).markSweeps s).beamBack s b

/-- Whether another pass of the line can write in place of beam `b` (R394 step 2). -/
def Mach.otherPass (m : Mach) (s b : Nat) : Bool :=
  let a := setAdvance (m.stnSet s)
  (List.range 32).any (fun c => c != b && c % a == b % a && m.beamWrites s c)

end Sys2Proof.Machine
end

