-- ==== Sys2Proof/Machine/CalLayer.lean ====
section
/-!
DEFINITION. The calibration layers (R536 to R541) and how a new value comes into force (R552).
-/

namespace Sys2Proof.Machine

/-! ### Items -/

/-- CAL_STAT. -/
def calStat : Nat := 0xF80000

/-- The calibration of an entry (R539). -/
def keyCal (key : Nat) : Nat := key % 256
/-- The SIDE of an entry. -/
def keySide (key : Nat) : Nat := key / 256 % 256
/-- The INSTANCE of an entry. -/
def keyInst (key : Nat) : Nat := key / 65536 % 256
/-- The INDEX of an entry. -/
def keyIndex (key : Nat) : Nat := key / 16777216 % 256

/-- Whether a calibration's items belong to a station's imaging. -/
def calImaging (id : Nat) : Bool := id == 2 || id == 3 || id == 4 || id == 5 || id == 8 || id == 0x10 || id == 0x11

/-- Placement items change only at the start of a sweep (R552). -/
def calPlacement (id : Nat) : Bool := id == 3 || id == 4 || id == 0x10 || id == 0x11

/-- Whether an entry names an item of the part (R537, R539, R542). -/
def calItemOk (p : Part) (key : Nat) : Bool :=
  let id := keyCal key
  let side := keySide key
  let inst := keyInst key
  let idx := keyIndex key
  let perSide := side == 1 || (side == 2 && p == .w9d)
  let stn := decide (inst < stationsOf p)
  let laser := hasLaser p
  if id = 1 then perSide && decide (inst < 16) && decide (idx ≤ 16)
  else if id = 2 then side == 0 && stn && decide (idx ≤ 33)
  else if id = 3 then perSide && stn && decide (idx ≤ 33) && laser
  else if id = 4 then perSide && stn && decide (idx ≤ 11) && laser
  else if id = 5 then perSide && stn && idx == 0 && laser
  else if id = 6 then perSide && decide (inst < hvOf p) && idx == 0
  else if id = 7 then perSide && decide (inst < 8) && idx == 0
  else if id = 8 then side == 0 && stn && idx == 0
  else if id = 0x10 || id = 0x11 then (side == 0 || perSide) && stn && decide (idx ≤ 63) && laser
  else false

/-- A field that an item loads: register, lowest bit, length, whether it is signed, and the limit of its magnitude where that
is smaller than the field. -/
structure CalField where
  off    : Nat
  lo     : Nat
  len    : Nat
  signed : Bool
  lim    : Option Int := none
  deriving DecidableEq, Repr

/-- The register fields of an item (R433, R438, R542); items of converters, HV feedback, motors, the synthesizer's loop and
the density sensor load no field of the map. -/
def calFields (key : Nat) : List CalField :=
  let s := keyInst key
  let k := keyIndex key
  let id := keyCal key
  if id = 2 then [{ off := beamBase s k, lo := 16, len := 8, signed := false }]
  else if id = 3 then [{ off := beamBase s k + 4, lo := 0, len := 16, signed := false },
                       { off := beamBase s k + 8, lo := 0, len := 16, signed := true }]
  else if id = 4 then [{ off := pxcBase s + 0x200 + 8 * k, lo := 16, len := 16, signed := true },
                       { off := pxcBase s + 0x200 + 8 * k, lo := 0, len := 16, signed := true },
                       { off := pxcBase s + 0x204 + 8 * k, lo := 0, len := 16, signed := true }]
  else if id = 0x10 then [{ off := pxcBase s + 0x100 + 4 * k, lo := 0, len := 16, signed := true }]
  else if id = 0x11 then [{ off := pxcBase s + 0x300 + 4 * (k / 8), lo := 4 * (k % 8), len := 4, signed := true, lim := some 4 }]
  else [{ off := 0, lo := 0, len := 32, signed := true }]

/-- The range of a field. -/
def CalField.range (f : CalField) : Int × Int :=
  let w : Int × Int := if f.signed then (-(2 ^ (f.len - 1) : Nat), (2 ^ (f.len - 1) - 1 : Nat)) else (0, (2 ^ f.len - 1 : Nat))
  match f.lim with
  | some l => (max w.1 (-l), min w.2 l)
  | none => w

/-- The nearest integer of a quotient; of two that are equally near, which one is not given. -/
def Mach.nearest (m : Mach) (tag : Nat) (a b : Int) : Int :=
  if (2 * a + b) % (2 * b) = 0 then (if Config.freeBool m.fresh tag then (2 * a + b) / (2 * b) else (2 * a + b) / (2 * b) - 1)
  else (2 * a + b) / (2 * b)

/-- The value an entry gives a field of its item before the limit (R536). Where an item loads several fields, one entry holds
one OFFSET and one GAIN: they are taken for the first field, and what they make of the others is not given. -/
def Mach.calRaw (m : Mach) (key i : Nat) (w : Word) : Int :=
  let f := Config.factory key i
  let o := signedOf 16 (fieldOf w 0 16)
  let g := signedOf 16 (fieldOf w 16 16)
  if i = 0 then m.nearest (500 + key) (f * (65536 + g) + o * 65536) 65536
  else if w = 0 then f
  else Config.freeInt m.fresh (4 * key + i)

/-- The value in force of a field of an item once its ramp has ended. -/
def Mach.calValue (m : Mach) (key i : Nat) (f : CalField) (w : Word) : Int :=
  clampInt f.range.1 f.range.2 (m.calRaw key i w)

/-- The sides that an item's value goes to. -/
def calSides (side : Nat) : List SideId := if side = 1 then [.a] else if side = 2 then [.b] else [.a, .b]

/-- Put a value into a field of the sides that an item names. -/
def Mach.calPut (m : Mach) (key : Nat) (f : CalField) (v : Int) : Mach :=
  if f.off = 0 then m
  else (calSides (keySide key)).foldl (fun t d =>
    if t.fitted d then t.put d f.off f.lo f.len (unsignedOf f.len v) else t) m

/-- What a field holds now. -/
def Mach.calNow (m : Mach) (key : Nat) (f : CalField) : Int :=
  let d := if keySide key = 2 then SideId.b else .a
  let n := m.get d f.off f.lo f.len
  if f.signed then signedOf f.len n else n

/-! ### Coming into force (R552) -/

/-- Change the calibration state. -/
def Mach.modCal (m : Mach) (f : Cal → Cal) : Mach := { m with cal := f m.cal }

/-- Whether an item is in use (R547, R552). -/
def Mach.calInUse (m : Mach) (key : Nat) : Bool :=
  let id := keyCal key
  let n := keyInst key
  let b := keyIndex key
  if id = 2 || id = 3 then
    (m.stnOf n).job != 0 && (if b < 32 then !m.beamOut n b else m.spareOn n (b - 32))
  else if calImaging id then (m.stnOf n).job != 0
  else if id = 6 then m.hvState n != 0
  else if id = 7 then m.motorState n != 0
  else m.inService (if keySide key = 2 then .b else .a)

/-- The length of an item's ramp: lines for imaging items, samples for the others. -/
def Mach.rampLength (m : Mach) (key : Nat) : Nat :=
  let n := if calImaging (keyCal key) then m.getA 0xF80004 16 16 else m.getA 0xF80004 0 16
  if n = 0 then 1 else n

/-- The value on step `i` of a ramp, truncated toward 0. -/
def CalRamp.at_ (r : CalRamp) (i : Nat) : Int :=
  if r.n ≤ i + 1 then r.new else r.old + Int.tdiv ((r.new - r.old) * (i + 1)) r.n

/-- Bring CAL_STAT.RAMPING in line: event 109 when the last ramp ends. -/
def Mach.rampEnd (m : Mach) : Mach :=
  if m.cal.ramps.isEmpty && m.bitA calStat 27 then
    ((m.setB calStat 27 false).raise 109).logM 0x0F noInst 0x0308 0 []
  else m

/-- Log a value limited under R536. -/
def Mach.logLimited (m : Mach) (key i : Nat) (f : CalField) (w : Word) : Mach :=
  if m.calRaw key i w < f.range.1 ∨ f.range.2 < m.calRaw key i w then m.logM 0x0F (keyInst key) 0x0306 1 [key, i] else m

/-- A new value of one field of an item: at once when the item is not in use or, with `unread`, serves no reader (R546), held to
JOB_ARM for IVL_DEV, ramped otherwise. No command of the table is a sample of the converters, so that a converter's ramp runs
whole within the command that starts it. -/
def Mach.calChange (m : Mach) (unread : Bool) (key i : Nat) (f : CalField) (w : Word) : Mach :=
  let v := m.calValue key i f w
  let m0 := m.logLimited key i f w
  let slot := 4 * key + i
  if unread || !m0.calInUse key then
    ((m0.calPut key f v).modCal (fun c => { c with ramps := tabErase c.ramps slot, held := tabErase c.held slot })).rampEnd
  else if keyCal key = 1 then (if v = m0.calValue key i f (tabGet 0 m0.cal.user key) then m0 else (m0.setB calStat 27 true).rampEnd)
  else if keyCal key = 4 && i = 2 then m0.modCal (fun c => { c with held := tabPut c.held slot v })
  else
    let old := if f.off = 0 then
        (match tabFind m0.cal.ramps slot with
         | some r => if r.i = 0 then r.old else r.at_ (r.i - 1)
         | none => m0.calValue key i f (tabGet 0 m0.cal.user key))
      else m0.calNow key f
    if old = v then (m0.modCal (fun c => { c with ramps := tabErase c.ramps slot })).rampEnd
    else (m0.modCal (fun c => { c with
      ramps := tabPut c.ramps slot { old := old, new := v, i := 0, n := m0.rampLength key } })).setB calStat 27 true

/-- CAL_STAT.DIRTY: the user layer differs from the latest saved generation. -/
def Mach.calDirty (m : Mach) : Mach := m.setB calStat 25 (m.cal.user != m.cal.saved)

/-- An entry of the user layer takes a new value (R537, R549). -/
def Mach.calEntry (m : Mach) (unread : Bool) (key : Nat) (w : Word) : Mach :=
  let m1 := ((calFields key).zipIdx).foldl (fun t p => t.calChange unread key p.2 p.1 w) m
  (m1.modCal (fun c => { c with user := tabPut c.user key w })).calDirty

/-- One ramp goes on by `n` steps. A placement item takes the value of the sweep's first line. -/
def Mach.rampStep (m : Mach) (slot n : Nat) : Mach :=
  match tabFind m.cal.ramps slot with
  | none => m
  | some r =>
    let key := slot / 4
    let f := (calFields key).getD (slot % 4) { off := 0, lo := 0, len := 32, signed := true }
    let place := calPlacement (keyCal key)
    let at_ := if place then r.i else r.i + n - 1
    let m1 := m.calPut key f (r.at_ at_)
    if r.n ≤ at_ + 1 then m1.modCal (fun c => { c with ramps := tabErase c.ramps slot })
    else m1.modCal (fun c => { c with ramps := tabPut c.ramps slot { r with i := r.i + n } })

/-- The ramps of the items that satisfy a test go on by `n` steps. -/
def Mach.rampSteps (m : Mach) (n : Nat) (p : Nat → Bool) : Mach :=
  if n = 0 then m
  else (((tabKeys m.cal.ramps).filter (fun slot => p (slot / 4))).foldl (fun t slot => t.rampStep slot n) m).rampEnd

/-- `n` station lines pass on a station. -/
def Mach.rampLines (m : Mach) (s n : Nat) : Mach :=
  m.rampSteps n (fun key => calImaging (keyCal key) && keyInst key == s)

/-- One sample of an HV output's loop. -/
def Mach.rampHv (m : Mach) (h : Nat) : Mach := m.rampSteps 1 (fun key => keyCal key == 6 && keyInst key == h)

/-- One sample of a motor's converters. -/
def Mach.rampMotor (m : Mach) (n : Nat) : Mach := m.rampSteps 1 (fun key => keyCal key == 7 && keyInst key == n)

/-- JOB_ARM takes a station: held IVL_DEV values take effect (R552). -/
def Mach.calArm (m : Mach) (s : Nat) : Mach :=
  m.cal.held.foldl (fun t e =>
    let key := e.1 / 4
    if keyInst key = s then
      match (calFields key)[e.1 % 4]? with
      | some f => (t.calPut key f e.2).modCal (fun c => { c with held := tabErase c.held e.1 })
      | none => t
    else t) m

/-! ### Records (R538 to R541) -/

/-- A calibration record. -/
def calRecord (p : Part) (gen time : Nat) (user : Tab Word) : List Byte :=
  let head := leBytes 4 0x4C414357 ++ leBytes 2 1 ++ leBytes 1 (fieldOf (capId p .a) 16 8) ++ leBytes 1 0 ++ leBytes 4 gen ++
    leBytes 4 user.length ++ leBytes 8 Config.moduleSerial ++ leBytes 8 time ++ leBytes 28 0
  let body := user.flatMap (fun e => leBytes 4 e.1 ++ wordBytes e.2)
  head ++ wordBytes (crc32c (head ++ body)) ++ body

/-- The entries of a record. -/
def recEntries (bs : List Byte) : Tab Word :=
  (List.range (numAt bs 12 4)).map (fun i => (numAt bs (64 + 8 * i) 4, wordAt bs (64 + 8 * i + 4)))

/-- Whether a record's CRC holds. -/
def recCrcOk (bs : List Byte) : Bool :=
  wordAt bs 60 == crc32c (bytesAt bs 0 60 ++ bytesAt bs 64 (8 * numAt bs 12 4))

/-- The first bad entry of a record: it names no item of the part, or the order of R539 is broken. -/
def badEntry (p : Part) (bs : List Byte) : Option Nat :=
  let n := numAt bs 12 4
  ((List.range n).find? (fun i =>
    let key := numAt bs (64 + 8 * i) 4
    !calItemOk p key || (decide (0 < i) && decide (key ≤ numAt bs (64 + 8 * i - 8) 4)))).map (fun i => 64 + 8 * i)

/-- The offset of the first bad byte of a record for CAL_USER_WRITE (R537). -/
def badRecord (p : Part) (bs : List Byte) : Option Nat :=
  match firstBad [(numAt bs 0 4 != 0x4C414357, 0), (numAt bs 4 2 != 1, 4),
      (decide (4096 < numAt bs 12 4 ∨ bs.length < 64 + 8 * numAt bs 12 4), 12),
      (numAt bs 16 8 != Config.moduleSerial % 2 ^ 64, 16)] with
  | some off => some off
  | none => if recCrcOk bs then badEntry p bs else some 60

/-- Whether a copy is valid (R541). -/
def copyValid (p : Part) (bs : List Byte) : Bool :=
  decide (64 ≤ bs.length) && numAt bs 0 4 == 0x4C414357 && numAt bs 4 2 == 1 &&
    numAt bs 6 1 == fieldOf (capId p .a) 16 8 && numAt bs 16 8 == Config.moduleSerial % 2 ^ 64 && recCrcOk bs

/-- The key of a side's copy. -/
def copyKey (d : SideId) (copy : Nat) : Nat := 2 * d.toNat + copy

/-- A side's copy, when it is valid. -/
def Mach.calCopy (m : Mach) (d : SideId) (copy : Nat) : Option (List Byte) :=
  match tabFind m.cal.copies (copyKey d copy) with
  | some bs => if copyValid m.part bs then some bs else none
  | none => none

/-- The generation of a copy; 0 when it is invalid. -/
def Mach.calGen (m : Mach) (d : SideId) (copy : Nat) : Nat := ((m.calCopy d copy).map (fun bs => numAt bs 8 4)).getD 0

/-- The generation registers and the copy bits of a side (R553, R554). -/
def Mach.showCopies (m : Mach) (d : SideId) : Mach :=
  let m1 := (m.wr d 0xF80008 (BitVec.ofNat 32 (m.calGen d 0))).wr d 0xF8000C (BitVec.ofNat 32 (m.calGen d 1))
  (m1.put d calStat 29 1 (b2n (m.calCopy d 0).isNone)).put d calStat 28 1 (b2n (m.calCopy d 1).isNone)

/-- The user layer that a side chooses at step 2 of R81 (R541): none on a conflict or without a valid copy. -/
def Mach.calChoose (m : Mach) (d : SideId) : Option (List Byte) × Bool :=
  match m.calCopy d 0, m.calCopy d 1 with
  | some x, some y =>
    if numAt x 8 4 = numAt y 8 4 then (if x = y then (some x, false) else (none, true))
    else (some (if numAt x 8 4 < numAt y 8 4 then y else x), false)
  | some x, none => (some x, false)
  | none, some y => (some y, false)
  | none, none => (none, false)

/-- Load every imaging field of a side from the layers (R410), at once: nothing of the side is in use. -/
def Mach.calTables (m : Mach) (d : SideId) : Mach :=
  let keys := (List.range (stationsOf m.part)).flatMap (fun s =>
    (List.range 34).map (fun b => calKey 2 0 s b) ++
    (if hasLaser m.part then
      (List.range 34).map (fun b => calKey 3 (sideCode d) s b) ++ (List.range 12).map (fun f => calKey 4 (sideCode d) s f) ++
      (List.range 64).flatMap (fun k => [calKey 0x10 (sideCode d) s k, calKey 0x11 (sideCode d) s k])
    else []))
  let m0 := (List.range (stationsOf m.part)).foldl (fun t s => (List.range 34).foldl (fun t b =>
    t.wr d (beamBase s b) (BitVec.ofNat 32 (Config.beamSetup s b % 16 * 2 ^ 28))) t) m
  keys.foldl (fun t key => ((calFields key).zipIdx).foldl (fun t p =>
    let v := t.calValue key p.2 p.1 (tabGet (tabGet 0 t.cal.user (key - 256 * keySide key)) t.cal.user key)
    t.put d p.1.off p.1.lo p.1.len (unsignedOf p.1.len v)) t) m0

/-- CAL_SPARE of a group shows a permanent stand-in (R550, R556). -/
def Mach.showSpares (m : Mach) (d : SideId) : Mach :=
  (m.cal.barred.filter (fun key => keyCal key == 1 && keySide key == sideCode d)).foldl (fun t key =>
    (t.put d (0xF80400 + 4 * keyInst key) 30 1 1).put d (0xF80400 + 4 * keyInst key) 0 4 (keyIndex key)) m

/-- Step 2 of R81 for calibration: the factory layer is read and the user layer chosen (R536, R541). A side that starts beside
a partner in service takes the layer that is in force. -/
def Mach.calLoad (m : Mach) (d : SideId) : Mach :=
  let ch := m.calChoose d
  let m1 := if m.inService d.other then m
    else
      let layer := (ch.1.map recEntries).getD []
      m.modCal (fun c => { c with user := layer, saved := layer, ramps := [], held := [] })
  let m2 := (m1.put d calStat 31 1 (b2n ch.2)).put d calStat 30 1 (b2n (ch.1.isNone && !ch.2))
  ((m2.showCopies d).calTables d).showSpares d

end Sys2Proof.Machine
end

