-- ==== Sys2Proof/Machine/CalRuns.lean ====
section
/-!
DEFINITION. Calibrations that run (R543 to R551): which commands run and which wait, the emitters and converters they take out
of service, the repeat test, and how a calibration ends.
-/

namespace Sys2Proof.Machine

/-! ### What a CAL_RUN command names (R543) -/

/-- CAL_ID of an identifier word. -/
def runCal (id : Nat) : Nat := id % 256

/-- The station of a beam calibration's identifier word. -/
def runStation (id : Nat) : Nat := id / 256 % 8

/-- The emitters that a beam calibration names. -/
def runBeams (id mask : Nat) : List Nat :=
  bitsOf mask 32 ++ (if hasBit id 16 then [32] else []) ++ (if hasBit id 17 then [33] else [])

/-- What a calibration keeps to itself (R545): converter groups, stations, HV outputs, motor channels. -/
def runUnits (id mask : Nat) : List Nat :=
  let c := runCal id
  if c = 1 then (bitsOf mask 16).map (fun g => 0x100 + g)
  else if c = 2 || c = 3 then [0x200 + runStation id]
  else if c = 6 then (bitsOf mask 26).map (fun h => 0x300 + h)
  else if c = 7 then (bitsOf mask 8).map (fun n => 0x400 + n)
  else (bitsOf mask 6).map (fun s => 0x200 + s)

/-- Whether two calibrations share a unit. -/
def runsShare (a b : Nat × Nat) : Bool := (runUnits a.1 a.2).any (fun u => (runUnits b.1 b.2).contains u)

/-- The instance shown in CAL_RUNNING. -/
def runInstance (id mask : Nat) : Nat :=
  if runCal id = 2 || runCal id = 3 then runStation id else (bitsOf mask 32).headD 0

/-- The identifier and mask of a waiting CAL_RUN. -/
def Await.calRun (w : Await) : Option (Nat × Nat) :=
  match w.kind with
  | .calRun id mask => some (id, mask)
  | _ => none

/-- The CAL_RUN commands that run: those that share nothing with an earlier one (R545), with their tags. -/
def calRunning (ws : List Await) : List (Nat × Nat × Nat) :=
  (ws.foldl (fun (acc : List (Nat × Nat) × List (Nat × Nat × Nat)) w =>
    match w.calRun with
    | none => acc
    | some r => (acc.1 ++ [r], if acc.1.any (fun e => runsShare e r) then acc.2 else acc.2 ++ [(w.msg.tag, r.1, r.2)]))
    ([], [])).2

/-- The performance level that the firmware demands (R559). -/
def Mach.demand (m : Mach) : Nat := if engLive m.eng || !m.encodes.isEmpty || !(calRunning m.awaits).isEmpty then 0 else 2

/-- DEMAND and the target follow what runs (R559), and the service domain moves towards the target (R560): a slower frequency at once; a
faster one when the voltage has settled, and HELD while the voltage still falls. -/
def Mach.perfFollow (m : Mach) : Mach :=
  let target := max m.demand (max (m.getA 0x20000 30 2) (m.getA 0x20004 24 2))
  let f := m.getA 0x20004 30 2
  let m1 := (m.putB 0x20000 28 2 m.demand).putB 0x20004 26 2 target
  if f ≤ target then (m1.putB 0x20004 30 2 target).setB 0x20004 23 false
  else if m.getA 0x20004 28 2 < f then m1.setB 0x20004 23 true
  else m1

/-- RUNNING and CAL_RUNNING show the first calibration that runs (R553, R554). -/
def Mach.calShow (m : Mach) : Mach :=
  (match calRunning m.awaits with
  | [] => (m.setB calStat 26 false).wrB 0xF80010 0
  | (_, id, mask) :: _ =>
    (m.setB calStat 26 true).wrB 0xF80010 (BitVec.ofNat 32 (runCal id * 2 ^ 24 + runInstance id mask * 2 ^ 16))).perfFollow

/-! ### Start and end -/

/-- A calibration begins: its beams go out of service as planned (R547), and beams may emit with the laser loop closed
(R432). -/
def Mach.calBegin (m : Mach) (id mask : Nat) : Mach :=
  if runCal id = 2 || runCal id = 3 then
    let ok := m.ilk.laserA && m.ilk.laserB && !m.ilk.laserLock
    let m1 := { m with ilk := { m.ilk with laserEnabled := m.ilk.laserEnabled || ok } }
    (bitsOf mask 32).foldl (fun t b => t.planOut (runStation id) b) m1
  else m

/-- CAL_SPARE of a group. -/
def calSpare (g : Nat) : Nat := 0xF80400 + 4 * g

/-- A spare converter begins or ends standing in for a channel (R546, R557). -/
def Mach.spareStands (m : Mach) (d : SideId) (g ch : Nat) (on : Bool) : Mach :=
  let m1 := (m.put d (calSpare g) 31 1 (b2n on)).put d (calSpare g) 0 4 (if on then ch else 0)
  (m1.raise 106).logFor d 0x0F g (if on then 0x0303 else 0x0304) 0 [ch]

/-- The step counter of a group's calibration on a side. -/
def stepKey (d : SideId) (g : Nat) : Nat := 16 * d.toNat + g

/-- A side's spare converters leave the groups of a calibration (R546 step 4). -/
def Mach.sparesBack (m : Mach) (d : SideId) (gs : List Nat) : Mach :=
  gs.foldl (fun t g =>
    let t1 := if t.get d (calSpare g) 31 1 = 1 && t.get d (calSpare g) 30 1 = 0 then
        t.spareStands d g (t.get d (calSpare g) 0 4) false
      else t
    t1.modCal (fun c => { c with steps := tabErase c.steps (stepKey d g) })) m

/-- Whether a beam stays out of service under a lasting action (R550). -/
def Mach.beamHeld (m : Mach) (s b : Nat) : Bool :=
  [0, 1, 2].any (fun d => m.cal.barred.contains (calKey 2 d s b) || m.cal.barred.contains (calKey 3 d s b))

/-- What a calibration took returns to service (R396, R546 step 4, R547). -/
def Mach.calReturn (m : Mach) (id mask : Nat) : Mach :=
  if runCal id = 2 || runCal id = 3 then
    let s := runStation id
    (bitsOf mask 32).foldl (fun t b => if t.beamHeld s b then t else t.planBack s b) (m.assignSpares s)
  else if runCal id = 1 then
    m.onSides Mach.fitted (fun d t => t.sparesBack d (bitsOf mask 16))
  else m

/-- The calibration of a tag is answered: LAST_ID and LAST_RESULT, its path returns, and calibrations that waited for it begin
(R545). -/
def Mach.calAnswer (m : Mach) (tag id mask status detail result : Nat) (payload : List Byte) : Mach :=
  let before := calRunning m.awaits
  let m1 := (m.putB calStat 8 8 (runCal id)).putB calStat 0 8 result
  let m2 := (m1.answerTag tag status detail payload).calReturn id mask
  let fresh := (calRunning m2.awaits).filter (fun r => !before.contains r)
  (fresh.foldl (fun t r => t.calBegin r.2.1 r.2.2) m2).calShow

/-- A running calibration is abandoned (R548). -/
def Mach.abandonCals (m : Mach) : Mach :=
  (m.awaits.filterMap (fun w => w.calRun.map (fun r => (w.msg.tag, r)))).reverse.foldl (fun t e =>
    t.calAnswer e.1 e.2.1 e.2.2 stCancelled 1 3 []) m

/-- An emitter fails while it is being calibrated or stands in for a beam that is: that calibration is abandoned with
ST_TIMEOUT (R548). -/
def Mach.calEmitterFailed (m : Mach) (s e : Nat) : Mach :=
  (calRunning m.awaits).foldl (fun t r =>
    let id := r.2.1
    let mask := r.2.2
    let stands := decide (32 ≤ e) && m.spareOn s (e - 32) && (runBeams id mask).contains (m.spareBeam s (e - 32))
    if (runCal id = 2 || runCal id = 3) && runStation id = s && ((runBeams id mask).contains e || stands) then
      t.calAnswer r.1 id mask stTimeout 0 2 []
    else t) m

/-! ### The repeat test (R549 to R551) -/

/-- The tolerances of a calibration (R542), in 1/1000 of their units. -/
def calTolerance : Nat → List Nat
  | 1 => [2000, 200000]
  | 2 => [1000]
  | 3 => [30000, 20000]
  | 4 => [15000, 20000, 3000]
  | 5 => [1000]
  | 6 => [2000, 200]
  | 7 => [500]
  | 8 => [5]
  | _ => []

/-- The agreement margin of an item in 0.1 % (R551). -/
def itemMargin (c : Nat) (r : CalResult) : Nat :=
  (((calTolerance c).zip r.diffs).map (fun p => ceilDiv (p.2 * 1000) p.1)).foldl max 0

/-- Whether every quantity of an item agrees within its tolerance (R549). -/
def itemAgrees (c : Nat) (r : CalResult) : Bool := ((calTolerance c).zip r.diffs).all (fun p => decide (p.2 ≤ p.1))

/-- The mean of two results, ties to even. -/
def meanEven (a b : Int) : Int :=
  let s := a + b
  if s % 2 = 0 then s / 2 else if (s / 2) % 2 = 0 then s / 2 else s / 2 + 1

/-- The key of an item of a calibration. -/
def resKey (r : CalResult) (c : Nat) : Nat := calKey c r.side r.inst r.index

/-- The user entry of an accepted item. -/
def resEntry (r : CalResult) : Word :=
  BitVec.ofNat 32 (unsignedOf 16 (meanEven r.offsets.1 r.offsets.2) +
    65536 * unsignedOf 16 (meanEven r.gains.1 r.gains.2))

/-- The quality figures (R551). -/
def calQuality (c now : Nat) (items : List CalResult) : List Byte :=
  let worst := items.foldl (fun (w : Option CalResult) r => match w with
    | some x => if x.primary.natAbs < r.primary.natAbs then some r else some x
    | none => some r) none
  let key := (worst.map (fun r => r.side * 2 ^ 24 + r.inst * 2 ^ 16 + r.index * 2 ^ 8)).getD 0
  leBytes 1 c ++ leBytes 1 (satAt 255 items.length) ++ leBytes 2 (satAt 65535 ((items.map (itemMargin c)).foldl max 0)) ++
    leBytes 4 (unsignedOf 32 ((worst.map CalResult.primary).getD 0)) ++ leBytes 4 key ++ leBytes 4 (now / 1000000)

/-- Store the quality record of a calibration (R555). -/
def Mach.putQuality (m : Mach) (c : Nat) (q : List Byte) : Mach :=
  (List.range 4).foldl (fun t i => t.wrB (0xF80100 + 0x10 * c + 4 * i) (wordAt q (4 * i))) m

/-- The lasting action of class CAL_DISAGREE on an item (R550). -/
def Mach.calLasting (m : Mach) (c : Nat) (r : CalResult) : Mach :=
  let key := resKey r c
  let m1 := (m.raise 110).logM 0x0F r.inst 0x0309 3 [key] 0x15
  let bar (t : Mach) : Mach := t.modCal (fun x => { x with barred := key :: x.barred.filter (fun k => k != key) })
  if c = 1 && decide (r.index < 16) then
    let d := if r.side = 2 then SideId.b else .a
    if m.get d (calSpare r.inst) 30 1 = 1 then m1 else (bar m1).showSpares d
  else if c = 2 || c = 3 then
    if r.index < 32 then (bar m1).planOut r.inst r.index else bar m1
  else m1

/-- An item that disagreed counts in class CAL_DISAGREE (R549, R550). -/
def Mach.calCount (m : Mach) (c : Nat) (r : CalResult) : Mach :=
  let p := m.countFault 0x15 r.side (r.inst * 256 + r.index)
  if p.2 then p.1.calLasting c r else p.1

/-- An accepted item enters the user layer (R549); a permanent action that the host has cleared ends (R550). -/
def Mach.calAccept (m : Mach) (c : Nat) (r : CalResult) : Mach :=
  let key := resKey r c
  let m1 := m.calEntry (c == 1) key (resEntry r)
  let d := if r.side = 2 then SideId.b else .a
  let m2 := if c = 1 && r.index = 16 then m1.put d (calSpare r.inst) 29 1 1 else m1
  if m2.cal.barred.contains key && !m2.lasting 0x15 r.side (r.inst * 256 + r.index) then
    let m3 := m2.modCal (fun x => { x with barred := x.barred.filter (fun k => k != key) })
    if c = 1 then (m3.put d (calSpare r.inst) 30 1 0).put d (calSpare r.inst) 0 4 0 else m3
  else m2

/-- A repeat test fails: event 105, the log entry, and the counts of the items that disagreed (R549, R557). -/
def Mach.calReject (m : Mach) (c inst : Nat) (items : List CalResult) : Mach :=
  let m1 := ((m.setB calStat 24 true).raise 105).logM 0x0F inst 0x0302 2 [c] 0x15
  (items.filter (fun r => !itemAgrees c r)).foldl (fun t r => t.calCount c r) m1

/-- A set of items is accepted: its values, its quality record and event 104. -/
def Mach.calAcceptAll (m : Mach) (c inst : Nat) (items : List CalResult) : Mach :=
  let q := calQuality c m.now items
  (((items.foldl (fun t r => t.calAccept c r) m).putQuality c q).raise 104).logM 0x0F inst 0x0301 0 [c]

end Sys2Proof.Machine
end

