-- ==== Sys2Proof/Machine/Pages.lean ====
section
/-!
DEFINITION. Pages, panels and product records (R32 to R39, R246, R362 to R371): blanking and flags, how a panel's record
becomes final, the chain and its checkpoints, publication, reject pulses, and the engine states (R188 to R191).
-/

namespace Sys2Proof.Machine

/-! ### Positions (R224, R236, R673) -/

/-- The registers of encoder channel `n`. -/
def encBase (n : Nat) : Nat := 0xD00000 + 0x100 * n

/-- An encoder channel. -/
def Mach.encOf (m : Mach) (n : Nat) : EncState := tabGet EncState.init m.enc n

/-- Change an encoder channel. -/
def Mach.modEnc (m : Mach) (n : Nat) (f : EncState → EncState) : Mach := { m with enc := tabPut m.enc n (f (m.encOf n)) }

/-- A channel's own position: floor(ENC_COUNT × POS_INC ÷ 2^24); POS_INC 0 acts as 1. -/
def Mach.ownPos (m : Mach) (n : Nat) : Int :=
  let inc := (m.rdA (encBase n + 4)).toNat
  ((m.encOf n).count * (if inc = 0 then 1 else inc : Nat)) / 2 ^ 24

/-- The backup channel of a channel (R228). -/
def Mach.backupOf (m : Mach) (n : Nat) : Nat := m.getA (encBase n) 16 2

/-- ENC_POS (R224): the own count, or the backup's after substitution (R236), or the last value held (R673). -/
def Mach.encPos (m : Mach) (n : Nat) : Int :=
  let e := m.encOf n
  match e.held with
  | some p => p
  | none => (if m.bitA (encBase n + 0x24) 30 then m.ownPos (m.backupOf n) else m.ownPos n) + e.subOffset

/-! ### Imaging faults (R39, R405) -/

/-- The bit of SCB_STN_FAULTS for a cause (R405). -/
def faultBit (unit code : Nat) : Nat := if unit = 6 then code - 1 else if unit = 0x0F then 10 else 9

/-- An imaging fault of a station that another unit logs (R405): the status fields, the fault bit and event 65 + 2s. -/
def Mach.imagingMark (m : Mach) (s unit code : Nat) : Mach :=
  let m1 := m.putB (scbBase s) 16 8 unit
  let m2 := m1.putB (scbBase s) 0 16 code
  (m2.setB (scbBase s + 4) (faultBit unit code) true).raise (65 + 2 * s)

/-- One imaging fault of a station (R405), with its log entry. -/
def Mach.imagingFault (m : Mach) (s unit code sev : Nat) (args : List Int) : Mach :=
  (m.imagingMark s unit code).logM unit s code sev args

/-- An imaging fault of a run of lines: it occurs once for consecutive lines of one cause (R405). -/
def Mach.faultRun (m : Mach) (s unit code sev : Nat) (args : List Int) : Mach :=
  if (m.stnOf s).run = some ⟨unit, code⟩ then m
  else (m.modStn s (fun t => { t with run := some ⟨unit, code⟩ })).imagingFault s unit code sev args

/-- A run of blanked or lost lines ends. -/
def Mach.endRun (m : Mach) (s : Nat) : Mach :=
  if (m.stnOf s).run.isSome then m.modStn s (fun t => { t with run := none }) else m

/-! ### Record flags (R363) -/

/-- SUSPECT. -/
def fSuspect : Nat := 0x001
/-- OVERSPEED. -/
def fOverspeed : Nat := 0x002
/-- ENC_DISAGREE. -/
def fDisagree : Nat := 0x004
/-- COMPARE_SKIPPED. -/
def fSkipped : Nat := 0x008
/-- STARVATION. -/
def fStarved : Nat := 0x010
/-- BLANKED. -/
def fBlanked : Nat := 0x020
/-- DEADLINE_MISS. -/
def fMiss : Nat := 0x040
/-- FIELD_FAIL. -/
def fField : Nat := 0x080
/-- WITHDRAWN. -/
def fWithdrawn : Nat := 0x100
/-- REFUSED. -/
def fRefused : Nat := 0x200
/-- POWER_LOSS. -/
def fPower : Nat := 0x400
/-- RECOVERED. -/
def fRecovered : Nat := 0x800
/-- FAULTED. -/
def fFaulted : Nat := 0x1000

/-- The last page line of a panel (R338). -/
def Panel.last (p : Panel) : Nat := p.y + p.height - 1

/-- Whether a panel touches a line between two page lines (R338). -/
def Panel.touches (p : Panel) (lo hi : Nat) : Bool := decide (p.y ≤ hi ∧ lo ≤ p.last ∧ 0 < p.height)

/-- Set flags on a panel that is not final. -/
def Panel.mark (p : Panel) (flags : Nat) : Panel := if p.final then p else { p with flags := p.flags ||| flags }

/-- Change a page in flight. -/
def Mach.modPage (m : Mach) (k : Nat) (f : Page → Page) : Mach := { m with pages := tabUpd m.pages k f }

/-- Flag every panel of a page that touches a range of page lines. -/
def Page.flagRange (p : Page) (lo hi flags : Nat) : Page :=
  { p with panels := p.panels.map (fun q => if q.touches lo hi then q.mark flags else q) }

/-- Flag every panel of a page. -/
def Page.flagAll (p : Page) (flags : Nat) : Page := { p with panels := p.panels.map (fun q => q.mark flags) }

/-- The density window of a page on a station opens (R506), unless it is known already. -/
def Mach.openWin (m : Mach) (s k : Nat) : Mach :=
  if m.drv.dens.any (fun w => w.station == s && w.page == k) then m
  else match tabFind m.pages k with
  | none => m
  | some p =>
    match tabFind p.prog s with
    | none => m
    | some q =>
      let lo := p.pos + q.offset + (numAt (m.loopOf (64 + s)).desc 52 4 : Int)
      m.modDrv (fun d => { d with dens := d.dens ++ [(⟨s, k, lo, lo + 64 * (p.length : Int), 0, 0, false⟩ : DensWin)] })

/-- A blanked, lost or derated line spoils the density sample of its page (R506). -/
def Mach.spoilWin (m : Mach) (s k : Nat) : Mach :=
  (m.openWin s k).modDrv (fun d => { d with
    dens := d.dens.map (fun w => if w.station = s ∧ w.page = k then { w with spoiled := true } else w) })

/-- The bow shift of a segment (R426, R433): −4 to +4 lines; LED stations have none. -/
def Mach.bowAt (m : Mach) (s k : Nat) : Int :=
  if m.getA (pxcBase s) 30 2 = 1 then
    clampInt (-4) 4 (signedOf 4 (m.getA (pxcBase s + 0x300 + 4 * (k / 8)) (4 * (k % 8)) 4))
  else 0

/-- The bow shifts of a station, each once. -/
def Mach.bowShifts (m : Mach) (s : Nat) : List Int := ((List.range 64).map (m.bowAt s)).eraseDups

/-- Flag the panels of a page that touch a range of lines on a station, shifted by the bow (R426). -/
def Page.flagBow (p : Page) (shifts : List Int) (lo hi flags : Nat) : Page :=
  shifts.foldl (fun (q : Page) (d : Int) => if (hi : Int) + d < 0 then q
    else q.flagRange ((lo : Int) + d).toNat ((hi : Int) + d).toNat flags) p

/-- The lines of a page in a range that have been judged blanked or lost already on a station. -/
def Page.badIn (p : Page) (s lo hi : Nat) : Nat :=
  match tabFind p.prog s with
  | some q => (q.bad.filter (fun y => decide (lo ≤ y ∧ y ≤ hi))).length
  | none => 0

/-- Lines of a page are blanked on a station (R35): the panels they touch, shifted by `shifts`, take BLANKED and the flags of the
cause. -/
def Mach.blankBy (m : Mach) (shifts : List Int) (s k lo hi flags : Nat) : Mach :=
  if hi < lo then m
  else
    let old := ((tabFind m.pages k).map (fun p => p.badIn s lo hi)).getD 0
    ((m.modPage k (fun p => p.flagBow shifts lo hi (fBlanked ||| flags))).addSatB (scbBase s + 8) (hi + 1 - lo - old)).spoilWin s k

/-- Lines are blanked or lost at the beam formatter: the panels are found through the bow (R426). -/
def Mach.blank (m : Mach) (s k lo hi flags : Nat) : Mach := m.blankBy (m.bowShifts s) s k lo hi flags

/-! ### The journal and the chain (R362 to R370) -/

/-- OPEN slots of the journal: the panels of the pages in flight whose records are not final. -/
def Mach.openSlots (m : Mach) : Nat :=
  (tabVals m.pages).foldl (fun n p => n + (p.panels.filter (fun q => !q.final)).length) 0

/-- Final slots not yet released (R368). -/
def Mach.heldSlots (m : Mach) : Nat := ((tabVals m.records.entries).filter (fun e => !e.isCkpt && !e.freed)).length

/-- Free slots of the journal (R374). -/
def Mach.freeSlots (m : Mach) : Nat := 16384 - (m.openSlots + m.heldSlots)

/-- STATUS of a record (R36, R363): VOID before commitment; REJECT where bits 0 to 5 name a blanked line or one of
R36's flags, or where R368 made it final; GOOD otherwise. The other flags tell why: their causes blank the lines that reject a panel. -/
def recStatus (committed : Bool) (flags : Nat) : Nat :=
  if !committed || hasBit flags 9 then 3
  else if flags &&& (0x3F ||| fRecovered) = 0 then 1 else 2

/-- The data digest (R362). -/
def panelDigest (p : Panel) : List Byte :=
  match p.feed, p.tpl with
  | some f, 0x10000 => (sha256 f.area).take 16
  | _, _ => (sha256 (p.data.flatMap (fun d => leBytes 2 d.length ++ d))).take 16

/-- The 128 bytes of a product record (R362). -/
def recordBytes (seq : Nat) (k : Page) (p : Panel) (side : SideId) (finalPos : Int) (prev : List Byte) : List Byte :=
  let less := decide (p.tpl = 0x10000)
  let s0 := if less then (p.feed.map FeedEntry.serial).getD 0 else ((p.taken[0]?).map Taken.value).getD 0
  let s1 := ((p.taken[1]?).map Taken.value).getD 0
  let c0 := if less then (if p.feed.isSome then 0xFE else 0xFF) else ((p.taken[0]?).map Taken.counter).getD 0xFF
  let c1 := ((p.taken[1]?).map Taken.counter).getD 0xFF
  let e0 := ((p.taken[0]?).map Taken.epoch).getD 0
  let e1 := ((p.taken[1]?).map Taken.epoch).getD 0
  leBytes 8 seq ++ leBytes 1 1 ++ leBytes 1 (recStatus k.committed p.flags) ++ leBytes 2 p.flags ++ leBytes 4 k.job ++
    leBytes 4 k.pageNo ++ leBytes 4 k.pageSeq ++ leBytes 1 p.index ++ leBytes 1 k.stations ++ leBytes 1 p.rejOut ++
    leBytes 1 (sideCode side) ++ leBytes 4 k.tplSet ++ leBytes 8 (unsignedOf 64 k.pos) ++ leBytes 8 k.time ++
    leBytes 8 s0 ++ leBytes 8 s1 ++ leBytes 1 c0 ++ leBytes 1 c1 ++ leBytes 2 e0 ++ leBytes 2 e1 ++ leBytes 2 0 ++
    leBytes 4 ((p.feed.map FeedEntry.seq).getD 0) ++ leBytes 4 0 ++ panelDigest p ++
    leBytes 8 (unsignedOf 64 finalPos) ++ leBytes 8 0 ++ prev

/-- Whether a chain entry may be published: nothing publishes at or after a checkpoint that is not signed (R366). -/
def Records.mayPublish (r : Records) (seq : Nat) : Bool :=
  !(r.entries.any (fun e => decide (e.1 ≤ seq) && e.2.isCkpt && !e.2.signed))

/-- Publish on one record ring of a side, in chain order, what may be published and fits (R155, R164, R173, R367): an entry published again
is not counted again. -/
def Mach.publishRing (m : Mach) (d : SideId) (n : Nat) : Nat → Mach
  | 0 => m
  | fuel + 1 =>
    if !m.ringOn d n then m
    else
      let aux := (m.side d).ringAux n
      match m.records.entries.find? (fun e => decide (aux.pubNext ≤ e.1) && e.2.ring == n) with
      | none => m
      | some (seq, e) =>
        if !m.records.mayPublish seq then m
        else if m.ringFree d n = 0 then
          if aux.stopped then m
          else ((m.modRing d n (fun a => { a with stopped := true })).put d (ringPage n + 0x18) 30 1 1).raiseOn d 53
        else
          let m1 := m.ringPost d n (fun slot => .ringEntry d n slot e.bytes)
          let m2 := m1.modRing d n (fun a => { a with
            pubNext := seq + 1, pubs := a.pubs ++ [seq], topNext := max a.topNext (seq + 1), stopped := false })
          let m3 := if e.isCkpt || decide (seq < aux.topNext) then m2
                    else m2.modSide d (fun s => { s with published := (s.published + 1) % 2 ^ 32 })
          (if e.isCkpt then m3 else m3.raiseOn d 49).publishRing d n fuel

/-- Whether a record ring of a side in service has still to publish a chain entry (R140). -/
def Mach.owedTo (m : Mach) (seq : Nat) (e : ChainEntry) : Bool :=
  [SideId.a, .b].any (fun d => m.inService d && m.ringOn d e.ring && decide (((m.side d).ringAux e.ring).pubNext ≤ seq))

/-- Released entries go once no record ring has still to publish them. -/
def Mach.dropFreed (m : Mach) : Mach :=
  { m with records := { m.records with entries := m.records.entries.filter (fun e => !e.2.freed || m.owedTo e.1 e.2) } }

/-- Publish on every record ring of the sides in service. -/
def Mach.publish (m : Mach) : Mach :=
  (m.onSides Mach.inService (fun d t => (List.range 8).foldl (fun t i => t.publishRing d (48 + i) 16384) t)).dropFreed

/-- Make a checkpoint (R364, R366) over the records not yet covered; it waits for its signature. -/
def Mach.makeCheckpoint (m : Mach) : Mach :=
  let r := m.records
  if r.uncovered = 0 then m
  else
    let ring := ((r.entries.reverse.find? (fun e => !e.2.isCkpt)).map (fun e => e.2.ring)).getD 48
    let body := leBytes 8 r.next ++ leBytes 1 2 ++ leBytes 1 (sideCode m.token) ++ leBytes 2 1 ++
      leBytes 4 r.uncovered ++ leBytes 8 r.ckptSeq ++ leBytes 8 m.now ++ r.lastHead
    { m with records := { r with
        next := r.next + 1, prevHash := (sha256 body).take 16, ckptSeq := r.next, uncovered := 0, ckptTimer := false
        entries := tabPut r.entries r.next { bytes := body, ring := ring, isCkpt := true, signed := false } } }

/-- A final record joins the journal and the chain (R365 to R368), and a checkpoint is made at 256. -/
def Mach.journal (m : Mach) (ring : Nat) (mk : Nat → List Byte → List Byte) : Mach :=
  let r := m.records
  let bytes := mk r.next r.prevHash
  let h := sha256 bytes
  let m1 := { m with records := { r with
      next := r.next + 1, prevHash := h.take 16, lastHead := h, journalled := r.journalled + 1, lastRec := r.next
      uncovered := r.uncovered + 1, ckptTimer := true
      entries := tabPut r.entries r.next { bytes := bytes, ring := ring, isCkpt := false, signed := true } } }
  if m1.records.uncovered = 256 then m1.makeCheckpoint else m1

/-! ### Reject outputs (R55, R253 to R258) -/

/-- The registers of reject output `j`. -/
def rejBase (j : Nat) : Nat := 0xD03000 + 0x20 * j

/-- A reject output. -/
def Mach.rejOf (m : Mach) (j : Nat) : RejState := tabGet RejState.init m.rejs j

/-- Change a reject output; REJ_STAT.PENDING follows its queue. -/
def Mach.modRej (m : Mach) (j : Nat) (f : RejState → RejState) : Mach :=
  let m1 := { m with rejs := tabPut m.rejs j (f (m.rejOf j)) }
  m1.putB (rejBase j + 0xC) 0 9 (m1.rejOf j).queue.length

/-- REJ_STAT.ON follows the pulses that run, the hold of a full queue, the overload and the supply (R55, R257, R258). -/
def Mach.rejShow (m : Mach) (j : Nat) : Mach :=
  let r := m.rejOf j
  m.setB (rejBase j + 0xC) 31 ((decide (0 < r.running) || r.heldOn) && !r.overload && m.io24)

/-- The first and the last of some positions. -/
def spanOf (d : Int) (xs : List Int) : Int × Int := xs.foldl (fun r x => (min r.1 x, max r.2 x)) (xs.headD d, xs.headD d)

/-- Fire one pulse on an output (R55, R257): without supply, or switched off by overload, it delivers none. -/
def Mach.pulse (m : Mach) (j : Nat) : Mach :=
  if !m.bitA (rejBase j) 31 || m.safe then m
  else if !m.io24 then ((m.setB (rejBase j + 0xC) 29 true).raise 60).logM 0x0D j 0x000C 2 []
  else if (m.rejOf j).overload then m
  else
    ((m.modRej j (fun r => { r with running := r.running + 1 })).rejShow j).addB (rejBase j + 0x10) 1

/-- The fire position of a panel (R253). -/
def Mach.firePos (m : Mach) (k : Page) (p : Panel) : Int :=
  let last := ((k.prog.reverse.head?).map (fun e => e.2.offset)).getD 0
  k.pos + last + (p.last : Int) * 64 + (m.rd64 m.token (rejBase p.rejOut + 4) : Int)

/-- Queue the reject pulse of a panel that did not end GOOD, or fire it at once when its position has passed (R253, R258). An output that is
not enabled serves no panel (R255). -/
def Mach.rejectPanel (m : Mach) (k : Page) (p : Panel) (chan : Nat) : Mach :=
  if 8 ≤ p.rejOut || !m.bitA (rejBase p.rejOut) 31 then m
  else
    let at_ := m.firePos k p
    if at_ ≤ m.encPos chan then
      ((m.pulse p.rejOut).setB (rejBase p.rejOut + 0xC) 27 true).logM 0x0D p.rejOut 0x000E 1 [at_]
    else if 256 ≤ (m.rejOf p.rejOut).queue.length then
      let m1 := ((m.modRej p.rejOut (fun r => { r with heldOn := true })).setB (rejBase p.rejOut + 0xC) 28 true).rejShow p.rejOut
      let span := spanOf at_ ((m.rejOf p.rejOut).queue.map Prod.snd)
      (m1.raise 60).logM 0x0D p.rejOut 0x000D 2 [span.1, span.2]
    else m.modRej p.rejOut (fun r => { r with queue := r.queue ++ [(chan, at_)] })

/-! ### Finality (R37, R371) -/

/-- Count a final record in its job (R204). -/
def Job.countFinal (j : Job) (status : Nat) : Job :=
  if status = 1 then { j with good := j.good + 1 }
  else if status = 2 then { j with reject := j.reject + 1 }
  else { j with void := j.void + 1 }

/-- A panel's counter values are committed with its record (R351). -/
def commitTaken (t : Tab Counter) (x : Taken) : Tab Counter :=
  tabUpd t x.counter (fun c =>
    if c.epoch = x.epoch then
      { c with committed := some (match c.committed with
          | some v => max v x.value
          | none => x.value) }
    else c)

/-- Make one panel's record final (R37): its record is journalled, its counters committed, its reject pulse raised. -/
def Mach.finalPanel (m : Mach) (key : Nat) (i : Nat) : Mach :=
  match tabFind m.pages key with
  | none => m
  | some k =>
    match k.panels.find? (fun p => p.index == i && !p.final) with
    | none => m
    | some p =>
      let job := tabFind m.jobs k.job
      let chan := (job.map Job.encoder).getD 0
      let ring := (job.map Job.ring).getD 48
      let status := recStatus k.committed p.flags
      let m1 := m.modPage key (fun q => { q with
        panels := q.panels.map (fun r => if r.index = i then { r with final := true } else r) })
      let m2 := m1.journal ring (fun seq prev => recordBytes seq k p m.token (m.encPos chan) prev)
      let m3 := { m2 with jobs := tabUpd m2.jobs k.job (fun j => j.countFinal status)
                          counters := p.taken.foldl commitTaken m2.counters }
      if status = 1 then m3 else m3.rejectPanel k p chan

/-- Make every remaining panel of a page final, in panel order. -/
def Mach.finalAll (m : Mach) (key : Nat) : Mach :=
  match tabFind m.pages key with
  | none => m
  | some k => k.panels.foldl (fun t p => t.finalPanel key p.index) m

/-- Make final the panels whose last line has been exposed on the last station of the page's set (R37). -/
def Mach.finalDone (m : Mach) (key : Nat) : Mach :=
  match tabFind m.pages key with
  | none => m
  | some k =>
    let done (p : Panel) : Bool := k.prog.all (fun e => e.2.ended || decide (p.last < e.2.next))
    k.panels.foldl (fun t p => if done p then t.finalPanel key p.index else t) m

/-! ### The engine (R188 to R191, R195) -/

/-- Enter an engine state: the state-change event and the log entry (R189, R668). -/
def Mach.setEng (m : Mach) (e : EngState) : Mach :=
  if m.eng = e then m
  else
    let sev := if e = .faulted then 3 else 0
    (({ m with eng := e }.raise 1).logM 0x00 noInst 0x0101 sev [engCode m.eng, engCode e, m.cause]).perfFollow

/-- The channel set of DMA MOVEs into station feeds completes, and every feed is emptied (R288). -/
def Side.dropFeeds (s : Side) : Side :=
  { s with
    feeds := []
    dma := tabMap (fun _ c =>
      match c.move with
      | some mv => if mv.dstSpace = 2 then
          { c with move := none, state := if c.state = .blocked then .running else c.state, pc := c.pc + 32, steps := 0,
                   bytes := 0 }
        else c
      | none => c) s.dma }

/-- The DMA channels of a side with a MOVE into a station feed. -/
def Side.feedMoves (s : Side) : List Nat :=
  (s.dma.filter (fun e => match e.2.move with
    | some mv => mv.dstSpace == 2
    | none => false)).map Prod.fst

/-- The engine leaves ARMED, PRINTING and DRAINING: feeds are emptied (R288), curves dropped (R381), strobes and sweeps stop
(R401, R414), decoders rest, and stations that do not run are matched (R587). -/
def Mach.stopStations (m : Mach) : Mach :=
  let m0 := m.onSides Mach.fitted (fun d t =>
    let hit := (t.side d).feedMoves
    let t1 := t.modSide d Side.dropFeeds
    hit.foldl (fun u c => (u.put d (0x200004 + 0x100 * c) 22 1 1).wr d (0x200040 + 0x100 * c)
      (u.rd d (0x200040 + 0x100 * c) + 1)) t1)
  let m1 := (List.range 6).foldl (fun t s =>
    if (t.stnOf s).job = 0 then t
    else
      let t0 := ((t.putB (scbBase s) 28 4 0).putB (pxcBase s + 4) 27 5 0).wrB (pxcBase s + 0x18) 0
      let t1 := (t0.putB (0xFC0100 + 0x20 * s) 30 2 2).wrB (0xD03910 + 4 * s) 0
      t1.modStn s (fun u => { Station.idle with spareFail := u.spareFail, firstLines := u.firstLines,
                                                set := u.set, lastPage := u.lastPage })) m0
  { m1 with decs := tabMap (fun _ d => d.rest) m1.decs }

/-- The response of JOB_END and JOB_ABORT (R204): pages completed, records final. -/
def Mach.jobCounts (m : Mach) (id : Nat) : List Byte :=
  match tabFind m.jobs id with
  | some j => leBytes 4 j.completed ++ leBytes 4 (j.good + j.reject + j.void)
  | none => leBytes 8 0

/-- The engine reaches CONFIGURED: the job is disarmed, the host feed emptied (R350), a checkpoint made (R366), and the
commands that wait for it answered (R204). -/
def Mach.reachConfigured (m : Mach) : Mach :=
  let m1 := { m.stopStations.releaseDrives with armed := 0, feed := [], cause := 0 }
  let m2 := (m1.setEng .configured).makeCheckpoint.publish
  m2.answerAwaits (fun k => match k with
    | .jobEnd _ => true
    | .jobAbort _ => true
    | _ => false) stOk 0 (fun k => match k with
    | .jobEnd j => m2.jobCounts j
    | .jobAbort j => m2.jobCounts j
    | _ => [])

/-- Close every page in flight at once: uncommitted pages are withdrawn, the remaining lines of committed pages are blanked
(R35, R190), and every record becomes final with the flags of the cause. -/
def Mach.closePages (m : Mach) (committedFlags openFlags : Nat) : Mach :=
  m.pages.foldl (fun t e =>
    let k := e.2
    let t1 := if k.committed then
        let t0 := t.modPage e.1 (fun p => p.flagAll (fBlanked ||| committedFlags))
        k.prog.foldl (fun u q => if q.2.ended then u
          else u.addSatB (scbBase q.1 + 8) (k.length - q.2.next - q.2.bad.length)) t0
      else
        let t0 := t.modPage e.1 (fun p => p.flagAll openFlags)
        { t0 with jobs := tabUpd t0.jobs k.job (fun j => { j with withdrawn := j.withdrawn + 1 }) }
    let t2 := t1.finalAll e.1
    { t2 with pages := tabErase t2.pages e.1 }) m

/-- Answer every deferred command that has not started with ST_CANCELLED and DETAIL 1 (R195). -/
def Mach.cancelDeferred (m : Mach) : Mach :=
  m.deferred.foldl (fun t w => t.respond w.opcode w.msg t.token 0x40 stCancelled 1 []) { m with deferred := [] }

/-- Enter FAULTED (R190, R195). -/
def Mach.enterFaulted (m : Mach) (cause committedFlags openFlags : Nat) : Mach :=
  if m.eng = .faulted then m
  else
    let m1 := m.closePages committedFlags openFlags
    let m2 := { m1.stopStations with armed := 0, cause := cause }
    (((m2.setEng .faulted).makeCheckpoint.publish).abandonCals).cancelDeferred

/-- The engine enters FAULTED on a cause that stops an armed job (R190, R608). -/
def Mach.faultEngine (m : Mach) (cause : Nat) : Mach :=
  m.enterFaulted cause fFaulted (fFaulted ||| fWithdrawn)

/-- JOB_ABORT, or the end of PB_GRACE (R111, R189): the job ends at once, without FAULTED. -/
def Mach.abortJob (m : Mach) : Mach :=
  if engLive m.eng then (m.closePages fFaulted (fFaulted ||| fWithdrawn)).reachConfigured else m

/-- A page ends on its last station (R189): it leaves flight, and the engine follows. -/
def Mach.endPage (m : Mach) (key : Nat) : Mach :=
  match tabFind m.pages key with
  | none => m
  | some k =>
    if k.prog.all (fun e => e.2.ended) && k.panels.all (fun p => p.final) then
      let m1 := { m with pages := tabErase m.pages key
                         jobs := tabUpd m.jobs k.job (fun j => { j with completed := j.completed + 1 }) }
      if !m1.pages.isEmpty then m1
      else match m1.eng with
        | .printing => m1.setEng .armed
        | .draining => m1.reachConfigured
        | .armed => m1
        | .configured => m1
        | .faulted => m1
    else m

/-- A page leaves flight before commitment (R34): its panels become VOID. -/
def Mach.withdrawPage (m : Mach) (key flags : Nat) : Mach :=
  match tabFind m.pages key with
  | none => m
  | some k =>
    let m1 := (m.modPage key (fun p => p.flagAll flags)).finalAll key
    let m2 := { m1 with pages := tabErase m1.pages key
                        jobs := tabUpd m1.jobs k.job (fun j => { j with withdrawn := j.withdrawn + 1 }) }
    if !m2.pages.isEmpty then m2.publish
    else match m2.eng with
      | .printing => (m2.setEng .armed).publish
      | .draining => m2.reachConfigured
      | .armed => m2.publish
      | .configured => m2.publish
      | .faulted => m2.publish

/-- A page commits when its first line is exposed on any station (R34, R368). -/
def Mach.commitPage (m : Mach) (key : Nat) : Mach :=
  match tabFind m.pages key with
  | none => m
  | some k =>
    if k.committed then m
    else
      let m1 := m.modPage key (fun p => { p with committed := true })
      { m1 with lastComm := k.pageNo
                jobs := tabUpd m1.jobs k.job (fun j => { j with
                  committed := j.committed + 1, exposed := k.pageNo :: j.exposed.filter (fun n => n != k.pageNo) }) }

/-- A page starts on a station: its first line is exposed, or its place is taken by blanked lines (R34, R39, R407). -/
def Mach.startPage (m : Mach) (s key : Nat) : Mach :=
  match tabFind m.pages key with
  | none => m
  | some k =>
    match tabFind k.prog s with
    | none => m
    | some q =>
      if q.started then m
      else
        let m1 := m.modPage key (fun p => { p with prog := tabPut p.prog s { q with started := true } })
        let m2 := (((m1.openWin s key).commitPage key).raise (64 + 2 * s)).modStn s (fun t => { t with
          firstLines := (t.firstLines + 1) % 65536, lastPage := key, gapRun := none })
        let res : Int := match q.grid with
          | some g => k.pos + q.offset - ((m.stnOf s).grid : Int) - 64 * g
          | none => 0
        ((m2.putB (scbBase s) 29 3 2).wrB (0xD03820 + 4 * s) (BitVec.ofInt 32 q.offset)).wrB (pxcBase s + 0x38)
          (BitVec.ofInt 32 res)

/-! ### Consumables (R640) -/

/-- A token's place before any token is found at it. -/
def Consumable.none : Consumable :=
  { state := 0, cert := ⟨0, 0, 0, 0, 0⟩, count := 0, lines := 0, low := false, armed := false, failed := false, barred := 0,
    query := false, asked := Option.none, retries := 0 }

/-- The token of a consumable index. -/
def Mach.tokenOf (m : Mach) (i : Nat) : Consumable := tabGet Consumable.none m.tokens i

/-- Change a token. -/
def Mach.modToken (m : Mach) (i : Nat) (f : Consumable → Consumable) : Mach := { m with tokens := tabPut m.tokens i (f (m.tokenOf i)) }

/-- A token is authenticated (R637, R639): the bus transaction goes out. -/
def Mach.askToken (m : Mach) (i : Nat) : Mach := (m.modToken i (fun x => { x with query := true, retries := 0 })).emit (.tokenQuery i)

/-- The tokens of a station that are there are authenticated (R639). -/
def Mach.askStation (m : Mach) (s : Nat) : Mach :=
  ([4 * s, 4 * s + 1, 4 * s + 2, 4 * s + 3].filter (fun i => (m.tokenOf i).state != 0 && (m.tokenOf i).state != 7)).foldl Mach.askToken m

/-- A token transaction that is under way is sent again (R77, R640). -/
def Mach.repeatToken (m : Mach) (i : Nat) : Mach :=
  let x := m.tokenOf i
  match x.asked with
  | some a => m.emit (.tokenDecrement i x.count a)
  | none => if x.query then m.emit (.tokenQuery i) else m

/-- Whether a token counts the lines of a station: its own station's, or for a fuser unit those of the job's highest-numbered
station. -/
def Mach.tokenCounts (m : Mach) (i s : Nat) : Bool :=
  if (m.tokenOf i).cert.type = 4 then
    decide (s = (bitsOf (((tabFind m.jobs m.armed).map Job.stations).getD 0) 6).getLast?.getD 6)
  else i / 4 == s

/-- A token accumulates exposed lines, and at a page's last line it is asked to count down. -/
def Mach.tokenLines (m : Mach) (s n : Nat) (last : Bool) : Mach :=
  ((tabKeys m.tokens).filter (fun i => m.tokenCounts i s)).foldl (fun t i =>
    let t1 := t.modToken i (fun x => { x with lines := x.lines + n })
    let x := t1.tokenOf i
    let amount := min (x.lines / max 1 x.cert.unitLines) x.count
    if last && x.state == 1 && x.asked.isNone && decide (0 < amount) then
      (t1.modToken i (fun y => { y with asked := some amount, retries := 0 })).emit (.tokenDecrement i x.count amount)
    else t1) m

/-- A station has passed page lines up to `next` (exposed, blanked or lost): the last line raises event 64 + 2s (R39), panels
become final and the page may end. -/
def Mach.passLines (m : Mach) (s key next : Nat) : Mach :=
  let m0 := m.startPage s key
  match tabFind m0.pages key with
  | none => m
  | some k =>
    match tabFind k.prog s with
    | none => m
    | some q =>
      if q.ended || next ≤ q.next then m
      else
        let nx := min next k.length
        let last := decide (nx = k.length)
        let m1 := m0.modPage key (fun p => { p with
          prog := tabPut p.prog s { q with next := nx, ended := last, bad := q.bad.filter (fun y => decide (nx ≤ y)) } })
        let m2 := if last then
            let u := (m1.raise (64 + 2 * s)).putB (scbBase s) 29 3 1
            u.modStn s (fun t => { t with
              run := none
              lastLine := q.grid.map (fun g => g + (k.length : Int) - 1)
              buffer := t.buffer.filter (fun l => l.page != key) })
          else m1
        ((((m2.tokenLines s (nx - q.next) last).finalDone key).endPage key)).publish

end Sys2Proof.Machine
end

