-- ==== Sys2Proof/Machine/Motors.lean ====
section
/-!
DEFINITION. The motor drives (R440 to R468): configuration and speed commands, direct torque control at each tick, the speed
ramp, polygon start and catch-spin, BiSS-C encoders, supervision, and the motor bus with its brake chopper.
-/

namespace Sys2Proof.Machine

/-! ### Parameters (R461, R465) -/

/-- MDR_PARAM of a channel. -/
def Mach.mdrParam (m : Mach) (n k : Nat) : Word := m.rdA (mdrBase n + 0x100 + 4 * k)

/-- A parameter with the default that 0 stands for. -/
def orElse (v d : Nat) : Nat := if v = 0 then d else v

/-- FLAGS of MOTOR_CONFIG. -/
def Mach.mdrFlags (m : Mach) (n : Nat) : Nat := fieldOf (m.mdrParam n 0) 16 16

/-- I_LIM in force, in mA: 70 % of its value while the motor sensor is at its throttle level (R570). -/
def Mach.motorLimit (m : Mach) (n : Nat) : Nat :=
  let i := fieldOf (m.mdrParam n 1) 0 16
  if (m.motorOf n).throttled then 7 * i else 10 * i

/-- SPEED_MAX in 1/16 rpm. -/
def Mach.speedMax (m : Mach) (n : Nat) : Nat := (m.mdrParam n 5).toNat

/-- ACC_LIM in rpm/s. -/
def Mach.accLim (m : Mach) (n : Nat) : Nat := orElse (m.mdrParam n 6).toNat 5000

/-- Points of a channel's curve (R446). -/
def Mach.curvePoints (m : Mach) (n : Nat) : List (Int × Int) :=
  (List.range (min 32 (m.getA (mdrBase n + 0x300) 0 6))).map (fun i =>
    (signedOf 32 (m.rdA (mdrBase n + 0x200 + 8 * i)).toNat, signedOf 32 (m.rdA (mdrBase n + 0x204 + 8 * i)).toNat))

/-- Whether a channel has a curve enabled (R447, R463): CURVE_EN and at least two points. -/
def Mach.hasCurve (m : Mach) (n : Nat) : Bool := hasBit (m.mdrFlags n) 1 && decide (2 ≤ (m.curvePoints n).length)

/-- The curve output at x16 ÷ 16 (R446), in 1/16 rpm, as an exact rational. -/
def curveAt : List (Int × Int) → Int → Rat
  | [], _ => 0
  | [(_, y)], _ => y
  | (x0, y0) :: (x1, y1) :: rest, x16 =>
    if x16 ≤ 16 * x0 then y0
    else if x16 ≤ 16 * x1 then (y0 : Rat) + ((y1 - y0) * (x16 - 16 * x0) : Int) / ((16 * (x1 - x0) : Int) : Rat)
    else curveAt ((x1, y1) :: rest) x16

/-! ### Faults and classes (R444, R451 to R456) -/

/-- A lasting motor class stops the engine when the motor belongs to the armed job (R456). -/
def Mach.jobMotorFault (m : Mach) (n : Nat) : Mach := if m.bitA (mdrBase n) 9 then m.faultEngine 5 else m

/-- An occurrence of a motor class that keeps the channel in FAULT once it is lasting. -/
def Mach.motorClass (m : Mach) (n cls : Nat) : Mach :=
  let r := m.countFault cls 0 n
  if r.2 then (r.1.motorFault n).jobMotorFault n else r.1

/-- LOCKED_ROTOR or START_FAIL (R454). -/
def Mach.rotorLocked (m : Mach) (n code : Nat) (start : Bool) : Mach :=
  let m1 := m.setB (mdrBase n + 4) 0 true
  let m2 := if start then m1.setB (mdrBase n + 4) 4 true else m1
  let m3 := ((m2.motorFault n).raise 84).logMotor n code 3 0x08
  m3.motorClass n 0x08

/-- The rotor is lost at speed (R451). A lasting class stops the polygon and inhibits its station (R456). -/
def Mach.rotorLost (m : Mach) (n : Nat) : Mach :=
  let m1 := (m.motorCatch n true).setB (mdrBase n + 4) 2 true
  let m2 := ((m1.addSatF (mdrBase n + 0x28) 16 16 1).raise 85).logMotor n 0x0005 2 0x07
  let r := m2.countFault 0x07 0 (n - 8)
  if r.2 then (r.1.motorOff n).refreshInhibit else r.1

/-- A channel resumes after its bridge is released (R444, R451, R459): from encoder position, or from catch-spin. One that MOTOR_STOP
was bringing to rest goes on to OFF (R463). -/
def Mach.motorResume (m : Mach) (n : Nat) : Mach :=
  let stop := decide (m.motorState n = 5)
  if isPoly n then (m.motorCatch n true).modMotor n (fun x => { x with stopping := stop || x.stopping })
  else if stop then m.freewheel n false
  else (m.freewheel n false).setMotor n 4

/-! ### Commands -/

/-- MOTOR_CONFIG's checks (R461, R462), in payload order. -/
def motorConfigBad (p : List Byte) (curve : Option (List Byte)) : Option Nat :=
  let n := numAt p 0 4
  let poly := isPoly n
  let st := numAt p 5 1
  let fl := numAt p 6 2
  let mt := fl / 32 % 32
  let clk := fl / 1024 % 16
  let out (v lo hi : Nat) : Bool := decide (v < lo ∨ hi < v)
  let out0 (v lo hi : Nat) : Bool := v != 0 && out v lo hi
  let c := curve.getD []
  let pts := numAt c 0 1
  let xs := (List.range pts).map (fun i => intAt c (8 + 8 * i) 4)
  let badCurve := !c.isEmpty && (out pts 2 32 || c.length != 8 + 8 * pts || numAt c 1 1 != 0 ||
    (xs.zip (xs.drop 1)).any (fun q => decide (q.2 ≤ q.1)))
  firstBad [(decide (13 < n), 0), (out (numAt p 4 1) 1 16, 4), (if poly then out st 4 12 else out st 12 32, 5),
    (decide (16384 ≤ fl) || (!poly && (decide (24 < mt) || decide (48 < st + mt) || out clk 1 10)), 6),
    (out (numAt p 8 2) 10 1500, 8), (numAt p 10 2 != 0, 10), (out (numAt p 12 4) 1 1000000, 12),
    (decide ((if poly then 36000 else 20000) * 16 < numAt p 24 4), 24), (out0 (numAt p 28 4) 1 100000, 28),
    (out0 (numAt p 32 2) 4 256, 32), (out0 (numAt p 34 2) 4 256, 34), (out0 (numAt p 36 2) 10 5000, 36),
    (out0 (numAt p 38 1) 5 100, 38), (out0 (numAt p 39 1) 80 98, 39), (numAt p 40 4 == 0, 40),
    (out0 (numAt p 44 2) 1 1000, 44), (if poly then out0 (numAt p 46 2) 1 500 else numAt p 46 2 != 0, 46), (badCurve, 48)]

/-- The words of MOTOR_CONFIG reach the channel's registers; FACETS reaches PXC_SCAN_CFG (R461). -/
def Mach.motorLoad (m : Mach) (n : Nat) (p : List Byte) (curve : List Byte) : Mach :=
  let m1 := (List.range 11).foldl (fun t k => t.wrB (mdrBase n + 0x100 + 4 * k) (wordAt p (4 + 4 * k))) m
  let m2 := if isPoly n then m1.putB (0xC00008 + 0x10000 * (n - 8)) 28 4 (numAt p 5 1) else m1
  if curve.isEmpty then m2
  else
    let pts := numAt curve 0 1
    let m3 := (m2.wrB (mdrBase n + 0x300) (BitVec.ofNat 32 (numAt curve 2 2 * 65536 + pts))).wrB (mdrBase n + 0x304)
      (wordAt curve 4)
    let m4 := (List.range 32).foldl (fun t i =>
      (t.wrB (mdrBase n + 0x200 + 8 * i) (if i < pts then wordAt curve (8 + 8 * i) else 0)).wrB (mdrBase n + 0x204 + 8 * i)
        (if i < pts then wordAt curve (12 + 8 * i) else 0)) m3
    m4.setB (mdrBase n) 15 false

/-- MOTOR_CONFIG: R461, R462, R456, R568, R570. -/
def planMotorConfig (msg : Msg) (m : Mach) : Plan :=
  let p := msg.payload
  let n := numAt p 0 4
  let buf := hostBuf msg 48
  { absent := decide (n ≤ 13) && !m.hasMotor n
    param := motorConfigBad p buf
    state := !(m.motorState n == 0 || m.motorState n == 6) || ((m.motorOf n).hot && (m.motorOf n).throttled)
    refuse := if buf.isNone then some (stHostFault, 0) else none
    act := fun t =>
      let t1 := (t.motorLoad n p (buf.getD [])).wrB (mdrBase n + 4) 0
      let t2 := ((t1.clearFault 0x08 0 n).clearFault 0x09 0 n).clearFault 0x0A 0 n
      let t3 := (t2.modLoop n (fun l => { l with st := 4 })).modMotor n (fun x => { x with bissBad := 0, history := [], hot := false })
      { t3.setMotor n 0 with shut := { t3.shut with fitTest := if n < 8 then setBitN t3.shut.fitTest (7 + n) else t3.shut.fitTest } } }

/-- MOTOR_CONFIG: R461. -/
def execMotorConfig (msg : Msg) (s : State) : Host.Outcome State Fault Refusal :=
  onM (fun m => m.runCmd { opcode := 0x0701, lenMin := 64, lenMax := 64, states := inC } msg (planMotorConfig msg)) s

/-- MOTOR_SPEED's plan (R463). -/
def planMotorSpeed (msg : Msg) (m : Mach) : Plan :=
  let n := numAt msg.payload 0 4
  let mode := numAt msg.payload 4 4
  { absent := decide (n ≤ 13) && !m.hasMotor n
    param := firstBad [(decide (13 < n), 0),
      (decide (2 < mode) || (mode == 0 && isPoly n) || (mode != 0 && !m.hasCurve n), 4)]
    state := m.bitA (mdrBase n) 9
    act := fun t => t.motorSource n mode (intAt msg.payload 8 4) }

/-- MOTOR_SPEED: R463. -/
def execMotorSpeed (msg : Msg) (s : State) : Host.Outcome State Fault Refusal :=
  onM (fun m => m.runCmd { opcode := 0x0702, lenMin := 12, lenMax := 12, states := inCAPD } msg (planMotorSpeed msg)) s

/-! ### Ticks (R442 to R446) -/

/-- The legs U, V, W of the vectors V0 to V5, as three bits (R443). -/
def vectorLegs (k : Nat) : Nat :=
  match k % 6 with
  | 0 => 4
  | 1 => 6
  | 2 => 2
  | 3 => 3
  | 4 => 1
  | _ => 5

/-- How many of three legs differ. -/
def legsChanged (a b : Nat) : Nat := ((List.range 3).filter (fun i => hasBit a i != hasBit b i)).length

/-- The zero vector that changes fewer legs, 000 on a tie (R443). -/
def zeroLegs (prev : Nat) : Nat := if legsChanged prev 7 < legsChanged prev 0 then 7 else 0

/-- REVERSE exchanges legs V and W. -/
def reverseLegs (legs : Nat) : Nat := (legs / 4) * 4 + (legs % 2) * 2 + legs / 2 % 2

/-- The legs that the switching table selects (R443). -/
def tableLegs (prev sector : Nat) (dPsi dT : Int) : Nat :=
  if dT = 0 then zeroLegs prev
  else if 0 < dPsi then vectorLegs (sector + (if 0 < dT then 1 else 5))
  else vectorLegs (sector + (if 0 < dT then 2 else 4))

/-- The flux comparator (R443): flux and reference in 1/1024 of PSI_NOM. -/
def fluxStep (flux band : Nat) (prev : Int) : Int :=
  if 2 * flux + band < 2048 then 1 else if 2048 + band < 2 * flux then -1 else prev

/-- The torque comparator (R443): torque, demand in 1/4096 of T_LIM, and a band in 1/1024 of it. -/
def torqueStep (t demand : Int) (band : Nat) (prev : Int) : Int :=
  if t ≤ demand - 2 * band then 1
  else if demand + 2 * band ≤ t then -1
  else if (prev = 1 ∧ demand ≤ t) ∨ (prev = -1 ∧ t ≤ demand) then 0
  else prev

/-- I_LIM forces the torque comparator against the demand (R444). -/
def limitStep (ovr : Bool) (demand step : Int) : Int :=
  if ovr then (if 0 < demand then -1 else if demand < 0 then 1 else step) else step

/-- VLIMIT begins and ends (R449). Whether the back-EMF estimate exceeds its limit rests on the flux estimate, which is free. -/
def Mach.voltageLimit (m : Mach) (n : Nat) : Mach :=
  let was := m.bitA (mdrBase n) 14
  let above := Config.freeBool m.fresh 10
  let below := Config.freeBool m.fresh 11
  if !was && above then ((m.setB (mdrBase n) 14 true).raise 87).logMotor n 0x0009 1
  else if was && below && !above then m.setB (mdrBase n) 14 false
  else m

/-- The polygon's observer confidence acts (R450 step 3, R451). -/
def Mach.confidence (m : Mach) (n conf : Nat) : Mach :=
  let x := m.motorOf n
  let st := m.motorState n
  if st = 4 then
    let c := if conf < 64 then x.confLow + 1 else 0
    let m1 := m.modMotor n (fun y => { y with confLow := c })
    if c = 32 then m1.rotorLost n else m1
  else if st = 2 then
    let c := if 160 ≤ conf then x.confHigh + 1 else 0
    let m1 := m.modMotor n (fun y => { y with confHigh := c })
    if c = 64 then m1.setMotor n 4 else m1
  else m

/-- MOTOR_TICK: R441 to R444, R449, R451. The flux and torque estimates, the sector, the confidence and a polygon's speed come
from an observer for which the spec gives differential equations and no number format: they are free values. -/
def Mach.motorTick (m : Mach) (n : Nat) (sample : MotorSample) : Mach :=
  let st := m.motorState n
  let m0 := (m.wrB (mdrBase n + 0x18) (BitVec.ofNat 32 (unsignedOf 16 sample.iu * 65536 + unsignedOf 16 sample.iv))).putB
    0xE08000 16 16 (satAt 65535 sample.vbus)
  if !(st = 2 || st = 4 || st = 5) || m.bitA (mdrBase n) 10 then m0
  else
    let x := m.motorOf n
    let poly := isPoly n
    let flux := Config.freeNat m.fresh 0 % 65536
    let torque := signedOf 16 (Config.freeNat m.fresh 1)
    let sector := Config.freeNat m.fresh 2 % 6
    let conf := if poly then Config.freeNat m.fresh 3 % 256 else 255
    let demand := signedOf 16 (m.getA (mdrBase n + 0x10) 16 16)
    let iw := -(sample.iu + sample.iv)
    let lim : Int := m.motorLimit n
    let ovr := [sample.iu, sample.iv, iw].any (fun i => decide (lim < 3 * (i.natAbs : Int)))
    let dPsi := fluxStep flux (orElse (fieldOf (m.mdrParam n 7) 16 16) 16) x.dPsi
    let dT := limitStep ovr demand (torqueStep torque demand (orElse (fieldOf (m.mdrParam n 7) 0 16) 32) x.dT)
    let fwd := if hasBit (m.mdrFlags n) 0 then reverseLegs x.legs else x.legs
    let sel := tableLegs fwd sector dPsi dT
    let legs := if hasBit (m.mdrFlags n) 0 then reverseLegs sel else sel
    let m1 := (m0.modMotor n (fun y => { y with dPsi := dPsi, dT := dT, legs := legs })).wrB (mdrBase n + 0x14)
      (BitVec.ofNat 32 (flux * 65536 + conf * 256 + sector))
    let m2 := m1.putB (mdrBase n + 0x10) 0 16 (unsignedOf 16 torque)
    let m3 := if poly then m2.wrB (mdrBase n + 0xC) (Config.freeWord (m.fresh)) else m2
    if poly then (m3.voltageLimit n).confidence n conf else m3.voltageLimit n

/-- MOTOR_TICK: R443. -/
def execMotorTick (ch : Nat) (sample : MotorSample) (s : State) : Host.Outcome State Fault Refusal :=
  onM (fun m => if m.hasMotor ch then (m.motorTick ch sample).rampMotor ch else m) s

/-- The line rate that a station's polygon gives at a speed in 1/16 rpm (R448), in lines/s. -/
def Mach.polyRate (m : Mach) (n : Nat) (speed16 : Int) : Rat :=
  let s := n - 8
  (speed16 : Rat) / 16 * ((m.usedFacets s (m.stnSet s) * setAdvance (m.stnSet s) : Nat) : Rat) / 60

/-- Whether the catch-up term is in force (R448): lines come from sweeps and the lag does not drain in the braking distance. -/
def Mach.catchUp (m : Mach) (n : Nat) : Bool :=
  let s := n - 8
  let k : Rat := (orElse (fieldOf (m.mdrParam n 10) 16 16) 200 : Nat) / 10000
  let r := m.polyRate n (signedOf 32 (m.rdA (mdrBase n + 0xC)).toNat) * k
  let a := (m.accLim n : Rat) * ((m.usedFacets s (m.stnSet s) * setAdvance (m.stnSet s) : Nat) : Rat) / 60
  let lag : Rat := ((m.rdA (0xD03910 + 4 * s)).toNat : Rat) / 64
  m.bitA (0xC00004 + 0x10000 * s) 27 && decide (r * r < lag * (2 * a))

/-- The target speed of a channel in 1/16 rpm before the ramp (R445, R446), with the curve's state. -/
def Mach.motorTarget (m : Mach) (n : Nat) : Rat × Bool :=
  let x := m.motorOf n
  let mode := m.getA (mdrBase n) 24 3
  if mode = 0 then (x.value, false)
  else
    let src := if x.saved.isSome then ((tabFind m.jobs m.armed).map Job.encoder).getD 0 else m.mdrFlags n / 8 % 4
    let in16 := if mode = 1 then 16 * x.value else signedOf 32 (m.rdA (0xD00020 + 0x100 * src)).toNat
    let onX := signedOf 32 (m.rdA (mdrBase n + 0x304)).toNat
    let hyst : Int := m.getA (mdrBase n + 0x300) 16 16
    let was := m.bitA (mdrBase n) 15
    let on := if was then !decide (in16 < 16 * (onX - hyst)) else decide (16 * onX ≤ in16)
    let y := if on then curveAt (m.curvePoints n) in16 else 0
    if isPoly n then
      let y1 : Rat := if 0 < y ∧ y < 32000 then 32000 else y
      let trim : Rat := (signedOf 32 (m.rdA (0xC00030 + 0x10000 * (n - 8))).toNat : Rat) / 1000000
      let cu : Rat := if m.catchUp n then (orElse (fieldOf (m.mdrParam n 10) 16 16) 200 : Nat) / 10000 else 0
      (y1 * (1 + trim + cu), on)
    else (y, on)

/-- One step of the ramp toward a target, in 1/10 000 rpm, by ACC_LIM for 100 µs (R445). -/
def rampTo (cmd target : Int) (acc : Nat) : Int :=
  if cmd < target then min target (cmd + acc) else max target (cmd - acc)

/-- SPEED_RAMP_TICK: R445, R446, R448 to R450, R463. -/
def Mach.speedRamp (m : Mach) (n : Nat) : Mach :=
  let st := m.motorState n
  let x := m.motorOf n
  if m.bitA (mdrBase n) 10 then m
  else if st = 2 then
    let c := min (x.cmd + (min (m.accLim n) 2000 : Nat)) 15000000
    let m1 := m.setCmd n c
    if c = 15000000 then m1.modMotor n (fun y => { y with at1500 := true }) else m1
  else if st = 4 || st = 5 then
    let t := if st = 5 then (0, m.bitA (mdrBase n) 15) else m.motorTarget n
    let lim : Int := 625 * m.speedMax n
    let goal := clampInt (-lim) lim (m.quot 20 (625 * t.1.num) t.1.den)
    let held : Int := if m.bitA (mdrBase n) 14 then (if x.cmd.natAbs < goal.natAbs then x.cmd else goal) else goal
    let c := rampTo x.cmd held (m.accLim n)
    let m1 := (m.setCmd n c).setB (mdrBase n) 15 t.2
    let m2 := if isPoly n then m1.setB (mdrBase n) 12 (st = 4 && m.catchUp n) else m1
    if st = 5 && decide (100 * (c.natAbs : Int) < lim) then m2.motorOff n else m2
  else m

/-- SPEED_RAMP_TICK: R445. -/
def execSpeedRampTick (ch : Nat) (s : State) : Host.Outcome State Fault Refusal :=
  onM (fun m => if m.hasMotor ch then m.speedRamp ch else m) s

/-! ### Faults and starts -/

/-- MOTOR_OVERCURRENT: R444, R456. -/
def execMotorOvercurrent (ch : Nat) (s : State) : Host.Outcome State Fault Refusal :=
  onM (fun m =>
    if !m.hasMotor ch || m.motorState ch = 0 || m.motorState ch = 6 then m
    else
      let m1 := ((m.freewheel ch true).setTorque ch 0).setB (mdrBase ch + 4) 1 true
      let m2 := ((m1.modMotor ch (fun x => { x with tripped := true })).raise 84).logMotor ch 0x0003 2 0x09
      m2.motorClass ch 0x09) s

/-- TRIP_RETRY: R444. -/
def execTripRetry (ch : Nat) (s : State) : Host.Outcome State Fault Refusal :=
  onM (fun m =>
    if (m.motorOf ch).tripped && m.motorState ch != 0 && m.motorState ch != 6 then
      let m1 := m.modMotor ch (fun x => { x with tripped := false })
      if (m.motorOf ch).clamped then m1 else m1.motorResume ch
    else m) s

/-- POLY_START_STEP: R450. -/
def execPolyStartStep (ch : Nat) (s : State) : Host.Outcome State Fault Refusal :=
  onM (fun m =>
    if !isPoly ch || !m.hasMotor ch then m
    else
      let st := m.motorState ch
      let x := m.motorOf ch
      if st = 3 && !x.spin then (m.freewheel ch false).setMotor ch 1
      else if st = 1 then (m.setCmd ch 0).setMotor ch 2
      else if st = 2 && x.at1500 then m.rotorLocked ch 0x0002 true
      else m) s

/-- BEMF_ZERO_CROSSING: R450 step 1, R452. -/
def execBemfZeroCrossing (ch : Nat) (agrees : Bool) (speed : Int) (s : State) : Host.Outcome State Fault Refusal :=
  onM (fun m =>
    if !isPoly ch || !m.hasMotor ch || m.motorState ch != 3 then m
    else
      let x := m.motorOf ch
      if x.quiet then m.modMotor ch (fun y => { y with seen := true })
      else
        let c := if agrees then x.crossings + 1 else 1
        let m1 := m.modMotor ch (fun y => { y with spin := true, crossings := c, seen := true })
        if c = 18 then
          let m2 := ((m1.freewheel ch false).setCmd ch (625 * speed)).wrB (mdrBase ch + 0xC) (BitVec.ofInt 32 speed)
          ((m2.setMotor ch (if x.stopping then 5 else 4)).raise 85).logMotor ch 0x0006 0
        else m1) s

/-- CATCH_SPIN_TIMEOUT: R452. The wait ends with the first 200 ms in which no crossing is seen. -/
def execCatchSpinTimeout (ch : Nat) (s : State) : Host.Outcome State Fault Refusal :=
  onM (fun m =>
    let x := m.motorOf ch
    if !isPoly ch || m.motorState ch != 3 || !(x.spin || x.quiet) then m
    else if x.quiet && !x.seen then
      if x.stopping then m.motorOff ch
      else ((m.modMotor ch (fun y => { y with quiet := false, spin := false })).freewheel ch false).setMotor ch 1
    else m.modMotor ch (fun y => { y with quiet := true, seen := false, crossings := 0 })) s

/-- The position of a frame as MDR_POS has it, in 1/65 536 turn (R465). -/
def bissPos (raw stBits mtBits : Nat) : Int := signedOf (stBits + mtBits) raw * 65536 / 2 ^ stBits

/-- Hold a motor's position. -/
def Mach.setMotorPos (m : Mach) (n : Nat) (p : Int) : Mach := m.wrB64 (mdrBase n + 0x1C) p

/-- A bad frame is counted and extrapolated over (R453). -/
def Mach.bissLost (m : Mach) (n : Nat) : Mach :=
  let speed := signedOf 32 (m.rdA (mdrBase n + 0xC)).toNat
  let pos := m.rdA64 (mdrBase n + 0x1C)
  let c := (m.motorOf n).bissBad + 1
  let m1 := (m.addSatF (mdrBase n + 0x28) 0 16 1).modMotor n (fun x => { x with bissBad := c, history := [] })
  let m2 := m1.setMotorPos n (pos + m.quot 30 (65536 * speed) 38400000)
  if c = 4 then
    let m3 := (m2.setB (mdrBase n + 4) 3 true).modMotor n (fun x => { x with encWait := true, bissBad := 0 })
    let m4 := (((m3.freewheel n true).setTorque n 0).raise 84).logMotor n 0x0004 2 0x0A
    m4.motorClass n 0x0A
  else m2

/-- BISS_FRAME: R453. Speed is the position difference over the last 40 frames, which is 1 ms. -/
def execBissFrame (ch : Nat) (frame : BissFrame) (s : State) : Host.Outcome State Fault Refusal :=
  onM (fun m =>
    if isPoly ch || !m.hasMotor ch || (m.motorOf ch).encWait then m
    else match frame with
    | .good p =>
      let st := fieldOf (m.mdrParam ch 0) 8 8
      let mt := m.mdrFlags ch / 32 % 32
      let x := m.motorOf ch
      let hist := (p :: x.history).take 41
      let m1 := (m.modMotor ch (fun y => { y with bissBad := 0, raw := p, history := hist })).setMotorPos ch (bissPos p st mt)
      match hist[40]? with
      | some old =>
        let dif := signedOf (st + mt) (p + 2 ^ (st + mt) - old % 2 ^ (st + mt))
        m1.wrB (mdrBase ch + 0xC) (BitVec.ofInt 32 (m.quot 31 (dif * 960000) (2 ^ st)))
      | none => m1
    | .badCrc => m.bissLost ch
    | .errorBit => m.bissLost ch
    | .timeout => m.bissLost ch) s

/-- BISS_RETRY: R453. -/
def execBissRetry (ch : Nat) (s : State) : Host.Outcome State Fault Refusal :=
  onM (fun m =>
    if (m.motorOf ch).encWait then
      let m1 := m.modMotor ch (fun x => { x with encWait := false })
      if m.motorState ch = 0 || m.motorState ch = 6 || (m.motorOf ch).clamped then m1 else m1.motorResume ch
    else m) s

/-- LOCKED_ROTOR: R454. -/
def execLockedRotor (ch : Nat) (s : State) : Host.Outcome State Fault Refusal :=
  onM (fun m =>
    if !m.hasMotor ch || m.motorState ch = 0 || m.motorState ch = 6 then m else m.rotorLocked ch 0x0001 false) s

/-- SPEED_DEV: R455, R456. -/
def execSpeedDev (ch : Nat) (on : Bool) (s : State) : Host.Outcome State Fault Refusal :=
  onM (fun m =>
    if !m.hasMotor ch || m.motorState ch != 4 || m.bitA (mdrBase ch) 13 = on then m
    else
      let m1 := m.setB (mdrBase ch) 13 on
      if on then
        let r := (((m1.setB (mdrBase ch + 4) 5 true).raise 86).logMotor ch 0x0007 2 0x0B).countFault 0x0B 0 ch
        if r.2 then
          if m.bitA (mdrBase ch) 9 then r.1.faultEngine 5 else r.1.logMotor ch 0x0007 3 0x0B
        else r.1
      else (m1.raise 86).logMotor ch 0x0008 0) s

/-! ### The motor bus (R458 to R460) -/

/-- A log entry of the motor bus. -/
def Mach.logBus (m : Mach) (code sev : Nat) (cls : Nat := 0xFFFF) : Mach := m.logM 0x0E noInst code sev [] cls

/-- REGEN_INHIBIT begins or ends: the demand of every motor that opposes its speed is forced to 0, and the steppers chop slowly
(R459, R472). -/
def Mach.setRegen (m : Mach) (on : Bool) : Mach :=
  if m.bitA 0xE08000 12 = on then m
  else
    let m1 := m.setB 0xE08000 12 on
    let m2 := if on then ((m1.setB 0xE08008 3 true).raise 88).logBus 0x000A 1 else m1
    let m3 := (List.range (motorsOf m.part)).foldl (fun t n =>
      if on then t.setTorque n (signedOf 16 (t.getA (mdrBase n + 0x10) 16 16)) else t.setB (mdrBase n) 11 false) m2
    (List.range (steppersOf m.part)).foldl (fun t n => t.setB (stpBase n) 8 (on || m.bitA 0xE08000 11)) m3

/-- CLAMP begins or ends: bridges freewheel, steppers switch off; encoder motors resume at once and polygons by catch-spin
(R459, R483). -/
def Mach.setClamp (m : Mach) (on : Bool) : Mach :=
  if m.bitA 0xE08000 11 = on then m
  else
    let m1 := m.setB 0xE08000 11 on
    if on then
      let m2 := (((m1.setB 0xE08008 2 true).raise 88).logBus 0x000B 2).steppersOff
      let m3 := (List.range (motorsOf m.part)).foldl (fun t n =>
        if t.motorState n = 0 || t.motorState n = 6 then t
        else (((t.freewheel n true).setTorque n 0).setB (mdrBase n + 4) 6 true).modMotor n
          (fun x => { x with clamped := true })) m2
      (List.range (steppersOf m.part)).foldl (fun t n => t.setB (stpBase n) 8 true) m3
    else
      let m2 := (List.range (motorsOf m.part)).foldl (fun t n =>
        if (t.motorOf n).clamped then
          let u := t.modMotor n (fun x => { x with clamped := false })
          if (t.motorOf n).tripped || (t.motorOf n).encWait then u else u.motorResume n
        else t) m1
      (List.range (steppersOf m.part)).foldl (fun t n => t.setB (stpBase n) 8 (t.bitA 0xE08000 12)) m2

/-- The chopper switches with the bus (R458, R459). -/
def Mach.setChopper (m : Mach) (on : Bool) : Mach := m.setB 0xE08000 15 on

/-- Energy has gone into the resistor and out of it since the last look, over a time that no command gives: MDR_BRAKE_ENERGY grows by
a free amount while the chopper is on, and the thermal model is free once it may have left 0 (R458). -/
def Mach.brakeHeat (m : Mach) : Mach :=
  let m1 := if m.bitA 0xE08000 15 then m.addB 0xE0800C (Config.freeNat m.fresh 40) else m
  if m.bitA 0xE08000 15 || m.getA 0xE08000 0 8 != 0 then m1.putB 0xE08000 0 8 (Config.freeNat m.fresh 41) else m1

/-- BUS_STAGE: R459. Voltages are in 10 mV. While BRAKE_LIMITED is set, whether the thermal model stands below 8 kJ is free (R458). -/
def execBusStage (vbus vin : Nat) (s : State) : Host.Outcome State Fault Refusal :=
  onM (fun m =>
    let m0 := m.brakeHeat.putB 0xE08000 16 16 (satAt 65535 vbus)
    let failed := m.bitA 0xE08000 14
    let limited := m.bitA 0xE08000 13
    let brakeOn := max (10 * clampNat 520 600 (m.getA 0xE08004 0 10)) (vin + 100)
    let full := limited && Config.freeBool m.fresh 42
    let m1 := if failed || full then m0.setChopper false
              else if brakeOn ≤ vbus then m0.setChopper true
              else if vbus + 100 ≤ brakeOn then m0.setChopper false
              else m0
    let enter := if failed || limited then max 5700 (vin + 150) else max 5800 (vin + 200)
    let leave := max (m.drv.regenAt - 300) (vin + 50)
    let m2 := if !m.bitA 0xE08000 12 then
        if enter ≤ vbus then (m1.modDrv (fun d => { d with regenAt := enter })).setRegen true else m1
      else if vbus ≤ leave && !failed then m1.setRegen false
      else m1
    if 6200 ≤ vbus then m2.setClamp true else if vbus ≤ 6000 then m2.setClamp false else m2) s

/-- CHOPPER_FAULT: R460. -/
def execChopperFault (short : Bool) (s : State) : Host.Outcome State Fault Refusal :=
  onM (fun m =>
    let m1 := (((m.brakeHeat).setB 0xE08008 (b2n short) true).setB 0xE08000 14 true).setB 0xE08000 15 false
    let m2 := (m1.raise 88).logBus (if short then 0x000D else 0x000C) 3 0x0C
    ((m2.countFault 0x0C 0 0).1).setRegen true) s

/-- BRAKE_LIMITED: R458. The model's value at the crossing is not given to 1/256, so it is free. -/
def execBrakeLimited (on : Bool) (s : State) : Host.Outcome State Fault Refusal :=
  onM (fun m =>
    if m.bitA 0xE08000 13 = on then m
    else
      let m1 := ((m.brakeHeat).setB 0xE08000 13 on).putB 0xE08000 0 8 (Config.freeNat m.fresh 41)
      if on then ((m1.setChopper false).raise 88).logBus 0x000E 1 else m1) s

end Sys2Proof.Machine
end

