-- ==== Sys2Proof/Machine/Steppers.lean ====
section
/-!
DEFINITION. The stepper channels (R469 to R492): configuration, the profile engine with its jerk-limited and adjusted stops,
homing, stalls and bridge faults, and electronic gearing. The spec gives the engine's arithmetic over real numbers and no
number format; the model keeps speeds, accelerations and intervals to 2^-16 and leaves the last bit of each result free.
-/

namespace Sys2Proof.Machine

/-! ### Parameters (R473, R489) -/

/-- STP_PARAM of a channel. -/
def Mach.stpParam (m : Mach) (n k : Nat) : Word := m.rdA (stpBase n + 0x40 + 4 * k)

/-- The step size d (R470). -/
def Mach.stepSize (m : Mach) (n : Nat) : Nat := 2 ^ (8 - min 8 (fieldOf (m.stpParam n 0) 0 8))

/-- SPEED_MAX. -/
def Mach.stpMax (m : Mach) (n : Nat) : Nat := orElse (m.stpParam n 3).toNat 256000

/-- GEAR_ACC. -/
def Mach.gearAcc (m : Mach) (n : Nat) : Nat := orElse (m.stpParam n 6).toNat 2560000

/-- Whether a channel's FAULT is locked (R484). -/
def Mach.stpLocked (m : Mach) (n : Nat) : Bool := m.bitA (stpBase n + 4) 31

/-! ### The profile engine (R475 to R477) -/

/-- 2^-16 ticks in a second: 400 MHz times 65 536. -/
def ticksPerSecond : Nat := 26214400000000

/-- The integer cube root, by trial of bits from `k` down. -/
def cubeRoot (v : Nat) : Nat → Nat → Nat
  | 0, acc => acc
  | k + 1, acc => if (acc + 2 ^ k) ^ 3 ≤ v then cubeRoot v k (acc + 2 ^ k) else cubeRoot v k acc

/-- The first interval from rest (R476): √(2d ÷ ACC), or ∛(6d ÷ JERK), at most 41.94 ms; in 2^-16 ticks. -/
def Mach.firstInterval (m : Mach) (d acc jerk : Nat) : Int :=
  let raw := if jerk = 0 then Nat.sqrt (2 * d * ticksPerSecond ^ 2 / acc)
             else cubeRoot (6 * d * ticksPerSecond ^ 3 / jerk) 64 0
  min (2 ^ 40) ((raw : Int) + b2n (Config.freeBool m.fresh 50))

/-- The distance a stop needs from speed `v` and acceleration `a` under ACC and JERK (R476). With jerk, the acceleration runs
to -p, holds when p is ACC, and returns to 0. -/
def stopDist (v a : Rat) (acc jerk : Nat) : Rat :=
  if jerk = 0 then v * v / (2 * acc)
  else
    let j : Rat := jerk
    let p2 := j * v + a * a / 2
    let scaled := (p2 * 65536 * 65536).floor.toNat
    let peak : Rat := (Nat.sqrt scaled : Rat) / 65536
    let p := if peak < acc then peak else (acc : Rat)
    let t1 := if 0 < a + p then (a + p) / j else 0
    let x1 := v * t1 + a * t1 * t1 / 2 - j * t1 * t1 * t1 / 6
    let v1 := v + a * t1 - j * t1 * t1 / 2
    let th := if peak < acc then 0 else (v1 - p * p / (2 * j)) / p
    let x2 := v1 * th - p * th * th / 2
    x1 + x2 + p * p * p / (6 * j * j)

/-- Hold the moving values of a stepper and the registers that show them (R489). -/
def Mach.showMotion (m : Mach) (n : Nat) : Mach :=
  let x := m.stepOf n
  let m1 := (m.wrB64 (stpBase n + 8) x.pos).wrB (stpBase n + 0x18) (BitVec.ofInt 32 (x.dir * (x.v / 65536)))
  m1.wrB (stpBase n + 0x1C) (BitVec.ofInt 32 (x.ivl / 65536))

/-- Start stepping from rest in a direction. -/
def Mach.fromRest (m : Mach) (n acc jerk : Nat) (dir : Int) : Mach :=
  let t := m.firstInterval (m.stepSize n) acc jerk
  ((m.modStep n (fun x => { x with v := 0, a := 0, ivl := t, dir := dir, stallRun := 0 })).setB (stpBase n) 10 false).showMotion n

/-- The next interval at speed `v`, in 2^-16 ticks (R475, R476). -/
def Mach.nextInterval (m : Mach) (d : Nat) (v : Int) : Int :=
  clampInt 65536 (2 ^ 40) (m.quot 51 (d * 65536 * ticksPerSecond) v)

/-- The slowest speed, in 2^-16 microsteps/s: d in 41.94 ms. -/
def floorSpeed (d : Nat) : Int := 1562500 * (d : Int)

/-- The speed after an interval at acceleration `a` (R476). -/
def Mach.speedAfter (m : Mach) (x : Stepper) (a : Int) : Int := x.v + m.quot 52 (a * x.ivl) ticksPerSecond

/-- A braking axis steps on, or comes to rest when its speed would fall to the floor. -/
def Mach.brakeStep (m : Mach) (n acc : Nat) (rest : Mach → Mach) : Mach :=
  let x := m.stepOf n
  let d := m.stepSize n
  let a : Int := -(65536 * (acc : Int))
  let v := m.speedAfter x a
  if v ≤ floorSpeed d then rest m
  else (m.modStep n (fun y => { y with v := v, a := a, ivl := m.nextInterval d v })).showMotion n

/-- The acceleration in force (STP_ACC_EFF). -/
def Mach.accEff (m : Mach) (n : Nat) : Nat := (m.rdA (stpBase n + 0x20)).toNat

/-- An axis that has come to rest at the end of a stop (R474, R479). -/
def Mach.stepStopped (m : Mach) (n : Nat) : Mach := (m.stepRest n 1).showMotion n

/-- Home has been found and the axis is at rest: positions are reduced by the latched one (R480). -/
def Mach.homeFound (m : Mach) (n : Nat) (ph : Int) : Mach :=
  let m1 := m.modStep n (fun x => { x with pos := x.pos - ph, target := x.pos - ph })
  let m2 := ((m1.stepRest n 1).showMotion n).wrB64 (stpBase n + 0x10) (m1.stepOf n).target
  (((m2.setB (stpBase n) 15 true).raise 95).logStep n 0x010B 0 [ph]).stepAnswer n false 0

/-- A move that is being adjusted brakes at no less than the acceleration that stops at the target (R477). -/
def Mach.adjust (m : Mach) (n : Nat) (x : Stepper) (rem : Int) : Mach :=
  let need := m.quot 53 (x.v * x.v) (2 * rem * 65536 * 65536)
  let eff := max (x.acc : Int) need
  let m1 := m.wrB (stpBase n + 0x20) (BitVec.ofInt 32 (min eff 0xFFFFFFFF))
  if decide ((x.acc : Int) < eff) && !x.adjusted then
    (((m1.modStep n (fun y => { y with adjusted := true })).setB (stpBase n) 12 true).setB (stpBase n + 4) 5 true |>.raise 95).logStep
      n 0x010A 1 [eff]
  else m1

/-- One step of a move toward its target (R476, R477). A stop passes TARGET when it needs a whole step more than remains. -/
def Mach.moveStep (m : Mach) (n : Nat) : Mach :=
  let x := m.stepOf n
  let d := m.stepSize n
  let rem := (x.target - x.pos) * x.dir
  if x.homing.isSome then m.brakeStep n (m.accEff n) (fun t => t.homeFound n (x.homing.getD 0))
  else if rem = 0 then
    let m1 := (m.stepRest n 1).showMotion n
    m1.stepAnswer n false (if x.home then 6 else 0)
  else if rem < 0 then
    m.brakeStep n x.acc (fun t => t.fromRest n x.acc x.jerk (-x.dir))
  else
    let need := stopDist ((x.v : Rat) / 65536) ((x.a : Rat) / 65536) x.acc x.jerk
    let ovr := decide (((rem - d : Int) : Rat) < need)
    let passes := decide (((rem + d : Int) : Rat) ≤ need)
    let m1 := if passes || x.adjusted then m.adjust n x rem else m
    let adj := (m1.stepOf n).adjusted
    let top : Int := 65536 * (min x.speed (m.stpMax n) : Nat)
    let goal : Int := if ovr || adj then -(65536 * (m1.accEff n : Int)) else if x.v < top then 65536 * (x.acc : Int) else 0
    let a := if x.jerk = 0 || adj then goal
             else x.a + clampInt (-(m.quot 54 (65536 * x.jerk * x.ivl) ticksPerSecond))
               (m.quot 54 (65536 * x.jerk * x.ivl) ticksPerSecond) (goal - x.a)
    let v1 := m1.speedAfter x a
    let v2 := if 0 ≤ goal ∧ top < v1 then top else v1
    let v := max v2 (floorSpeed d)
    (m1.modStep n (fun y => { y with v := v, a := a, ivl := m1.nextInterval d v })).showMotion n

/-! ### Gearing (R485 to R487) -/

/-- G at a master position (R485). -/
def Mach.gearAt (m : Mach) (n : Nat) (g : GearArm) (pos : Int) : Int :=
  let x := m.stepOf n
  let d : Int := m.stepSize n
  (x.g0 + (pos - x.m0) * g.num / g.den) / d * d

/-- The gear target G (R485). -/
def Mach.gearTarget (m : Mach) (n : Nat) : Int :=
  let x := m.stepOf n
  match x.gear with
  | none => x.pos
  | some g => m.gearAt n g (if g.forward then x.high else m.encPos g.master)

/-- v_g, in 2^-16 microsteps/s (R487). -/
def Mach.gearSpeed (m : Mach) (n : Nat) : Int :=
  match (m.stepOf n).gear with
  | none => 0
  | some g => m.quot 55 (4 * 65536 * signedOf 32 (m.rdA (encBase g.master + 0x20)).toNat * g.num) g.den

/-- The gear error and its lag (R487). -/
def Mach.gearError (m : Mach) (n : Nat) : Mach :=
  let g := m.gearTarget n
  let e := g - (m.stepOf n).pos
  let tol : Int := orElse (m.stpParam n 5).toNat 2560
  let m1 := (m.wrB64 (stpBase n + 0x10) g).wrB (stpBase n + 0x24) (BitVec.ofInt 32 (clampInt (-2147483647) 2147483647 e))
  let lag := decide (tol < (e.natAbs : Int))
  if m.bitA (stpBase n) 13 = lag then m1
  else
    let m2 := (m1.setB (stpBase n) 13 lag).raise 93
    if lag then m2.logStep n 0x0106 1 [e] else m2.logStep n 0x0107 0 [e]

/-- One step of a geared axis (R487): it closes on the moving target, brakes onto it from above its speed, and rests on a
target that stands. -/
def Mach.gearStep (m : Mach) (n : Nat) : Mach :=
  let x := m.stepOf n
  let d := m.stepSize n
  let rem := (m.gearTarget n - x.pos) * x.dir
  let acc := m.gearAcc n
  let vg := m.gearSpeed n * x.dir
  let top : Int := 65536 * m.stpMax n
  let rel := x.v - vg
  let need : Rat := if 0 < rel then ((rel * rel : Int) : Rat) / (2 * 65536 * 65536 * acc) else 0
  if rem < d ∧ vg ≤ 0 ∧ x.v ≤ floorSpeed d then (m.stepRest n 3).showMotion n
  else
    let goal : Int := if ((rem - d : Int) : Rat) < need then -(65536 * (acc : Int)) else 65536 * acc
    let v1 := m.speedAfter x goal
    let v2 := if rem < d ∧ v1 < vg then vg else v1
    let v := clampInt (floorSpeed d) top v2
    (m.modStep n (fun y => { y with v := v, a := goal, ivl := m.nextInterval d v })).showMotion n

/-- A geared axis at rest starts when G leaves its position by a step. -/
def Mach.gearWake (m : Mach) (n : Nat) : Mach :=
  let x := m.stepOf n
  let e := m.gearTarget n - x.pos
  if m.stepState n = 3 && x.ivl = 0 && decide ((m.stepSize n : Int) ≤ (e.natAbs : Int)) then
    m.fromRest n (m.gearAcc n) 0 (if e < 0 then -1 else 1)
  else m

/-- A gear change takes effect at a master position (R486). -/
def Mach.gearApply (m : Mach) (n : Nat) (g : GearArm) (ma : Int) : Mach :=
  let m0 := m.setB (stpBase n) 14 false
  let x := m.stepOf n
  let m1 := if g.engage then
      let again := m.stepState n == 3
      let g0 := match x.gear with
        | some old => if !again then x.pos
                      else if old.master = g.master then m.gearAt n old (if old.forward then max x.high ma else ma)
                      else m.gearTarget n
        | none => x.pos
      let t := (if again then m0 else m0.stepAnswer n false 2).modStep n (fun y => { y with
        gear := some g, pending := none, m0 := ma, g0 := g0, num0 := g.num, high := max ma (m.encPos g.master)
        adjusted := false, homing := none, home := false })
      let t1 := (t.wrB (stpBase n + 0x60) (BitVec.ofInt 32 g.num)).wrB (stpBase n + 0x64) (BitVec.ofNat 32 g.den)
      let t2 := t1.wrB (stpBase n + 0x70) (BitVec.ofNat 32 (2 ^ 31 + 2 ^ 30 * b2n g.forward + g.master))
      let t3 := (t2.wrB (stpBase n + 0x20) (BitVec.ofNat 32 (m.gearAcc n))).putB (stpBase n) 28 4 3
      (t3.setB (stpBase n) 10 false).gearWake n
    else if m.stepState n = 3 then
      let t := (m0.stepUngear n).putB (stpBase n) 28 4 4
      if x.ivl = 0 then t.stepStopped n else t
    else m0.modStep n (fun y => { y with pending := none })
  ((m1.raise 94).logStep n 0x0109 0 [ma]).stepAnswer n true 0

/-- The armed change of a channel takes effect when its master reaches ARM_POS; the highest master position is kept (R485,
R486). -/
def Mach.gearCheck (m : Mach) (n : Nat) : Mach :=
  let x := m.stepOf n
  let m1 := match x.gear with
    | some g => if x.high < m.encPos g.master then m.modStep n (fun y => { y with high := m.encPos g.master }) else m
    | none => m
  match x.pending with
  | some g => if g.armPos ≤ m.encPos g.master then m.gearApply n g g.armPos else m1
  | none => m1

/-- A substitution step of a master does not move G (R487). -/
def Mach.gearAbsorb (m : Mach) (ch : Nat) (step : Int) : Mach :=
  m.drv.steps.foldl (fun t e =>
    match e.2.gear with
    | some g => if g.master = ch then t.modStep e.1 (fun x => { x with m0 := x.m0 + step, high := x.high + step }) else t
    | none => t) m

/-- An encoder fault that is not substituted ends the gear (R487). -/
def Mach.gearMasterLost (m : Mach) (ch : Nat) : Mach :=
  m.drv.steps.foldl (fun t e =>
    match e.2.gear with
    | some g =>
      if g.master = ch && t.stepState e.1 = 3 then
        let n := e.1
        let t1 := (t.stepUngear n).putB (stpBase n) 28 4 4
        let t2 := (((t1.setB (stpBase n + 4) 4 true).raise 93).logStep n 0x0108 2).stepAnswer n true 9
        if e.2.ivl = 0 then t2.stepStopped n else t2
      else t
    | none => t) m

/-- The dosing ratio of a toner loop scales the gear (R505): a ratio change at once, without event or answer. -/
def Mach.gearScale (m : Mach) (n : Nat) (u : Rat) : Mach :=
  let x := m.stepOf n
  match x.gear with
  | none => m
  | some g =>
    let mm := if g.forward then x.high else m.encPos g.master
    let num := clampInt (-2147483648) 2147483647 (roundHalf ((x.num0 : Rat) * u))
    (m.modStep n (fun y => { y with
      gear := some { g with num := num }, m0 := mm, g0 := x.g0 + (mm - x.m0) * g.num / g.den })).wrB (stpBase n + 0x60)
        (BitVec.ofInt 32 num)

/-- GEAR_TICK: R485, R487. -/
def execGearTick (ch : Nat) (s : State) : Host.Outcome State Fault Refusal :=
  onM (fun m =>
    if steppersOf m.part ≤ ch then m
    else
      let m1 := m.gearCheck ch
      if m1.stepState ch = 3 then (m1.gearError ch).gearWake ch else m1) s

/-! ### Stalls, bridge faults, current (R471, R481 to R484) -/

/-- A lasting stepper class locks the channel in FAULT (R484). -/
def Mach.stepClass (m : Mach) (n cls cause : Nat) : Mach :=
  let r := m.countFault cls 0 n
  if r.2 then (r.1.setB (stpBase n + 4) 31 true).stepDead n 5 cause else r.1

/-- The load figure at a full step, and the stall it may show (R481). -/
def Mach.loadFigure (m : Mach) (n load : Nat) : Mach :=
  let x := m.stepOf n
  let l := satAt 1023 load
  let m1 := m.wrB (stpBase n + 0x28) (BitVec.ofNat 32 l)
  let low := hasBit (fieldOf (m.stpParam n 0) 8 8) 1 && decide (l < 4 * fieldOf (m.stpParam n 2) 8 8) &&
    decide (65536 * (orElse (m.stpParam n 4).toNat 25600 : Nat) ≤ x.v)
  let run := if low then x.stallRun + 1 else 0
  let m2 := m1.modStep n (fun y => { y with stallRun := run })
  if run < 4 then m2
  else
    let m3 := ((((m2.stepRest n 1).stepUngear n).setB (stpBase n + 4) 0 true).setB (stpBase n) 11 true).setB (stpBase n) 15 false
    let m4 := (((m3.raise 91).logStep n 0x0102 2 [l] 0x0D).stepAnswer n false 3).stepAnswer n true 3
    (m4.showMotion n).stepClass n 0x0D 3

/-- STEP_INTERVAL_END: R470, R475 to R477, R481. -/
def execStepIntervalEnd (ch : Nat) (load : Option Nat) (s : State) : Host.Outcome State Fault Refusal :=
  onM (fun m =>
    let st := m.stepState ch
    let x := m.stepOf ch
    if steppersOf m.part ≤ ch || x.ivl = 0 || !(st = 2 || st = 3 || st = 4) then m
    else
      let d := m.stepSize ch
      let m1 := (m.modStep ch (fun y => { y with pos := y.pos + y.dir * d })).addB (stpBase ch + 0x2C) 1
      let m2 := match load with
        | some l => if (m1.stepOf ch).pos % 256 = 0 then m1.loadFigure ch l else m1
        | none => m1
      if m2.stepState ch != st then m2
      else if st = 2 then m2.moveStep ch
      else if st = 3 then m2.gearStep ch
      else m2.brakeStep ch (m2.accEff ch) (fun t => t.stepStopped ch)) s

/-- HOME_EDGE: R480. -/
def execHomeEdge (ch : Nat) (s : State) : Host.Outcome State Fault Refusal :=
  onM (fun m =>
    if steppersOf m.part ≤ ch then m
    else
      let x := m.stepOf ch
      let m1 := m.setB (stpBase ch) 9 true
      if m.stepState ch = 2 && x.home && x.homing.isNone then
        let m2 := m1.modStep ch (fun y => { y with homing := some y.pos })
        if x.ivl = 0 then m2.homeFound ch x.pos else m2
      else m1) s

/-- STP_BRIDGE_FAULT: R482, R484. -/
def execStpBridgeFault (ch : Nat) (overcurrent : Bool) (s : State) : Host.Outcome State Fault Refusal :=
  onM (fun m =>
    if steppersOf m.part ≤ ch || m.stepState ch = 0 || m.stepState ch = 5 then m
    else
      let m1 := (m.stepDead ch 5 4).setB (stpBase ch + 4) (if overcurrent then 1 else 2) true
      let m2 := ((m1.raise 92).logStep ch (if overcurrent then 0x0103 else 0x0104) 2 [] 0x0E).showMotion ch
      m2.stepClass ch 0x0E 4) s

/-- HOLD_DELAY_END: R471, R490. After a stall the channel holds IRUN (R481). -/
def execHoldDelayEnd (ch : Nat) (s : State) : Host.Outcome State Fault Refusal :=
  onM (fun m =>
    if m.stepState ch = 1 && !m.bitA (stpBase ch) 10 && !m.bitA (stpBase ch) 11 && decide (ch < steppersOf m.part) then m.setB (stpBase ch) 10 true
    else m) s

/-! ### Commands -/

/-- STP_CONFIG: R473, R484. -/
def planStpConfig (msg : Msg) (m : Mach) : Plan :=
  let p := msg.payload
  let n := numAt p 0 4
  let out (v lo hi : Nat) : Bool := decide (v < lo ∨ hi < v)
  let out0 (v lo hi : Nat) : Bool := v != 0 && out v lo hi
  { absent := decide (n ≤ 11) && decide (steppersOf m.part ≤ n)
    param := firstBad [(decide (11 < n), 0), (decide (8 < numAt p 4 1), 4), (decide (7 < numAt p 5 1), 5),
      (out (numAt p 6 1) 1 200, 6), (decide (200 < numAt p 7 1), 7), (out0 (numAt p 8 2) 1 10000, 8),
      (out0 (numAt p 10 1) 2 40, 10), (decide (100 < numAt p 11 1), 11), (out0 (numAt p 12 1) 1 4, 12),
      (numAt p 14 2 != 0, 14), (out0 (numAt p 16 4) 1 2560000, 16), (out0 (numAt p 20 4) 1 2560000, 20),
      (decide (2147483647 < numAt p 24 4), 24), (out0 (numAt p 28 4) 100 4294967295, 28)]
    state := !(m.stepState n == 0 || m.stepState n == 1 || m.stepState n == 5)
    act := fun t =>
      let t1 := (List.range 7).foldl (fun u k => u.wrB (stpBase n + 0x40 + 4 * k) (wordAt p (4 + 4 * k))) t
      let t2 := ((t1.wrB (stpBase n + 4) 0).clearFault 0x0D 0 n).clearFault 0x0E 0 n
      if t.stepState n = 5 then t2.putB (stpBase n) 28 4 0 else t2 }

/-- STP_CONFIG: R473. -/
def execStpConfig (msg : Msg) (s : State) : Host.Outcome State Fault Refusal :=
  onM (fun m => m.runCmd { opcode := 0x0704, lenMin := 32, lenMax := 32, states := inC } msg (planStpConfig msg)) s

/-- Answer the earlier STP_MOVE or STP_GEAR of a channel that a later one replaces (R479, R486). -/
def Mach.supersede (m : Mach) (n tag : Nat) (gear : Bool) : Mach :=
  let is (w : Await) : Bool := (if gear then w.kind == .stpGear n else w.kind == .stpMove n) && w.msg.tag != tag
  let hit := m.awaits.filter is
  let m1 := { m with awaits := m.awaits.filter (fun w => !is w) }
  hit.foldl (fun t w => ((t.respond w.opcode w.msg t.token 0 stOk 1 []).raise 90).logStep n 0x0101 0 [1]) m1

/-- A move begins or replaces the running one (R474, R478, R479). -/
def Mach.startMove (m : Mach) (n tag : Nat) (target : Int) (home : Bool) (speed acc jerk : Nat) : Mach :=
  let st := m.stepState n
  let m0 := m.supersede n tag false
  let m1 := if st = 3 then (m0.supersede n tag true).stepUngear n else m0
  let m2 := m1.modStep n (fun x => { x with
    target := target, speed := speed, acc := acc, jerk := jerk, home := home, homing := none, adjusted := false })
  let m3 := ((m2.wrB64 (stpBase n + 0x10) target).wrB (stpBase n + 0x20) (BitVec.ofNat 32 acc)).setB (stpBase n) 12 false
  let m4 := ((m3.setB (stpBase n) 11 false).setB (stpBase n) 10 false).putB (stpBase n) 28 4 2
  let x := m4.stepOf n
  if x.ivl != 0 then m4
  else if x.target = x.pos then (m4.stepRest n 1).stepAnswer n false (if home then 6 else 0)
  else m4.fromRest n acc jerk (if x.target < x.pos then -1 else 1)

/-- STP_MOVE's plan: R478, R479. A channel locked in FAULT answers at once with DETAIL 8. -/
def planStpMove (msg : Msg) (m : Mach) : Plan :=
  let p := msg.payload
  let n := numAt p 0 1
  let fl := numAt p 1 1
  let target := intAt p 4 8 + (if hasBit fl 0 then (m.stepOf n).pos else 0)
  let speed := numAt p 12 4
  let acc := numAt p 16 4
  let jerk := numAt p 20 4
  let locked := m.stepState n == 5 && m.stpLocked n
  { absent := decide (n ≤ 11) && decide (steppersOf m.part ≤ n)
    param := firstBad [(decide (11 < n), 0), (decide (3 < fl), 1), (numAt p 2 2 != 0, 2),
      (target % (m.stepSize n : Int) != 0, 4), (speed == 0 || decide (2560000 < speed), 12), (decide (acc < 100), 16),
      (jerk != 0 && decide (jerk < 1000), 20)]
    detail := if locked then 8 else 0
    later := if locked then none else some (.stpMove n)
    act := fun t => if locked then (t.raise 90).logStep n 0x0101 0 [8]
                    else t.startMove n msg.tag target (hasBit fl 1) (min speed (t.stpMax n)) acc jerk }

/-- STP_MOVE: R478. -/
def execStpMove (msg : Msg) (s : State) : Host.Outcome State Fault Refusal :=
  onM (fun m => m.runCmd { opcode := 0x0705, lenMin := 24, lenMax := 24, states := inCAPD } msg (planStpMove msg)) s

/-- STP_GEAR's plan: R486. -/
def planStpGear (msg : Msg) (m : Mach) : Plan :=
  let p := msg.payload
  let n := numAt p 0 1
  let fl := numAt p 2 2
  let g : GearArm := { master := numAt p 1 1, engage := hasBit fl 0, forward := hasBit fl 1, num := intAt p 4 4,
                       den := numAt p 8 4, armPos := intAt p 12 8 }
  let locked := m.stepState n == 5 && m.stpLocked n
  { absent := decide (n ≤ 11) && decide (steppersOf m.part ≤ n)
    param := firstBad [(decide (11 < n), 0), (decide (3 < g.master), 1), (decide (7 < fl), 2), (g.den == 0, 8),
      (numAt p 20 4 != 0, 20)]
    detail := if locked then 8 else 0
    later := if locked then none else some (.stpGear n)
    act := fun t =>
      if locked then (t.raise 90).logStep n 0x0101 0 [8]
      else
        let t1 := t.supersede n msg.tag true
        if hasBit fl 2 || decide (g.armPos ≤ t.encPos g.master) then t1.gearApply n g (t.encPos g.master)
        else ((t1.modStep n (fun x => { x with pending := some g })).setB (stpBase n) 14 true).wrB64 (stpBase n + 0x68) g.armPos }

/-- STP_GEAR: R486. -/
def execStpGear (msg : Msg) (s : State) : Host.Outcome State Fault Refusal :=
  onM (fun m => m.runCmd { opcode := 0x0706, lenMin := 24, lenMax := 24, states := inCAPD } msg (planStpGear msg)) s

/-- A stepper brakes to rest by MOTOR_STOP (R479). -/
def Mach.stepStop (m : Mach) (n : Nat) : Mach :=
  let st := m.stepState n
  if st = 2 || st = 3 then
    let m1 := if st = 3 then (m.stepUngear n).stepAnswer n true 7 else m.stepAnswer n false 7
    let m2 := (m1.modStep n (fun x => { x with homing := none })).putB (stpBase n) 28 4 4
    if (m.stepOf n).ivl = 0 then m2.stepStopped n else m2
  else m

/-- MOTOR_STOP's plan: R463, R469, R479. -/
def planMotorStop (msg : Msg) (m : Mach) : Plan :=
  let w := numAt msg.payload 0 4
  let n := w % 256
  let stp := hasBit w 8
  let moving := stp && (m.stepState n == 2 || m.stepState n == 3 || m.stepState n == 4) && (m.stepOf n).ivl != 0
  { absent := decide (w < 512) &&
      (if stp then decide (n ≤ 11) && decide (steppersOf m.part ≤ n) else decide (n ≤ 13) && !m.hasMotor n)
    param := firstBad [(decide (512 ≤ w) || (if stp then decide (11 < n) else decide (13 < n)), 0)]
    state := !stp && m.bitA (mdrBase n) 9 && engLive m.eng
    later := if moving then some (.stpStop n) else none
    act := fun t => if stp then t.stepStop n else t.motorStop n }

/-- MOTOR_STOP: R463, R479. -/
def execMotorStop (msg : Msg) (s : State) : Host.Outcome State Fault Refusal :=
  onM (fun m => m.runCmd { opcode := 0x0703, lenMin := 4, lenMax := 4, states := inCAPDF } msg (planMotorStop msg)) s

/-- MOTION_READ's response for a motor (R464). -/
def Mach.motorReply (m : Mach) (n : Nat) : List Byte :=
  let b := mdrBase n
  leBytes 1 (m.motorState n) ++ leBytes 1 (b2n (isPoly n)) ++ leBytes 2 (m.getA b 0 16) ++ wordBytes (m.rdA (b + 0xC)) ++
    wordBytes (m.rdA (b + 8)) ++ leBytes 4 (unsignedOf 32 (signedOf 16 (m.getA (b + 0x10) 16 16))) ++
    wordBytes (m.rdA (b + 0x1C)) ++ wordBytes (m.rdA (b + 0x20)) ++ leBytes 2 (m.getA 0xE08000 16 16) ++
    leBytes 1 (if isPoly n then m.getA (b + 0x14) 8 8 else 255) ++ leBytes 1 (m.getA (b + 4) 0 8) ++ wordBytes (m.rdA (b + 0x28))

/-- MOTION_READ's response for a stepper (R491). -/
def Mach.stepReply (m : Mach) (n : Nat) : List Byte :=
  let b := stpBase n
  leBytes 1 (m.stepState n) ++ leBytes 1 2 ++ leBytes 2 (m.getA b 0 16) ++ wordBytes (m.rdA (b + 0x18)) ++
    wordBytes (m.rdA (b + 8)) ++ wordBytes (m.rdA (b + 0xC)) ++ wordBytes (m.rdA (b + 0x10)) ++
    wordBytes (m.rdA (b + 0x14)) ++ wordBytes (m.rdA (b + 0x24)) ++ leBytes 2 (m.getA (b + 0x28) 0 10) ++
    leBytes 1 (m.getA (b + 4) 0 8) ++ leBytes 1 (m.getA (b + 4) 31 1)

/-- MOTION_READ's plan: R464, R491. -/
def planMotionRead (msg : Msg) (m : Mach) : Plan :=
  let w := numAt msg.payload 0 4
  let n := w % 256
  let stp := hasBit w 8
  { absent := decide (w < 512) &&
      (if stp then decide (n ≤ 11) && decide (steppersOf m.part ≤ n) else decide (n ≤ 13) && !m.hasMotor n)
    param := firstBad [(decide (512 ≤ w) || (if stp then decide (11 < n) else decide (13 < n)), 0)]
    reply := if stp then m.stepReply n else m.motorReply n }

/-- MOTION_READ: R464. -/
def execMotionRead (msg : Msg) (s : State) : Host.Outcome State Fault Refusal :=
  onM (fun m => m.runCmd { opcode := 0x0707, lenMin := 4, lenMax := 4, states := inCAPDF } msg (planMotionRead msg)) s

end Sys2Proof.Machine
end

