-- ==== Sys2Proof/Machine/Control.lean ====
section
/-!
DEFINITION. The control engine, the high-voltage outputs and the fuser (R493 to R535): loop descriptors, the PID sample and
its plausibility model in binary32, toner and density control, HV modes with limits, arcs and trips, and the fuser's firing
and protection.
-/

namespace Sys2Proof.Machine

/-! ### Loop descriptors (R494 to R497) -/

/-- TRIGGER of a descriptor. -/
def loopTrig (desc : List Byte) : Nat := numAt desc 0 1

/-- TRIG_ARG. -/
def loopArg (desc : List Byte) : Nat := numAt desc 1 1

/-- OUTPUT. -/
def loopOut (desc : List Byte) : Nat := numAt desc 10 2

/-- Whether a loop's binding is fitted (R493). -/
def loopFitted (p : Part) (n : Nat) : Bool :=
  if n < 14 then decide (n < motorsOf p)
  else if n < 22 then true
  else if n < 28 then decide (n - 22 < stationsOf p) && hasLaser p
  else if n < 54 then decide (n - 28 < hvOf p)
  else if n < 58 then decide (n - 54 < fusersOf p)
  else if n < 64 then decide (n - 58 < stationsOf p)
  else if n < 70 then decide (n - 64 < stationsOf p)
  else decide (n < 256)

/-- Whether a loop's set-point comes from LOOP_SETPOINT (R494, R496): toner, density and free loops. -/
def spCommanded (n : Nat) : Bool := decide (58 ≤ n)

/-- The sample rate of a loop (R497); loops sampled by sweeps or pages count at no fixed rate. -/
def loopRate (descOf : Nat → List Byte) : Nat → Nat → Rat
  | 0, _ => 0
  | fuel + 1, n =>
    let d := descOf n
    match loopTrig d with
    | 1 => 1000000 / (max 1 (numAt d 4 4) : Nat)
    | 4 => loopRate descOf fuel (loopArg d) / (max 1 (numAt d 2 2) : Nat)
    | _ => 0

/-- The loops chained under a loop by CASCADE: more than `fuel` when the chain is longer or runs in a cycle (R497). -/
def chainDepth (descOf : Nat → List Byte) : Nat → Nat → Nat
  | 0, _ => 1
  | fuel + 1, n => if loopTrig (descOf n) = 4 then 1 + chainDepth descOf fuel (loopArg (descOf n)) else 1

/-- Whether an INPUT code names a source that exists (R496). -/
def inputOk (p : Part) (code : Nat) : Bool :=
  let k := code % 256
  match code / 256 with
  | 1 => decide (k < hvOf p)
  | 2 => decide (k < 8)
  | 3 => decide (k < motorsOf p)
  | 4 => decide (k < stationsOf p)
  | 6 => decide (k < 4)
  | 7 => true
  | _ => false

/-- The limits of a loop's output (R494): PXC_TRIM_LIM for a polygon phase, MAX_DUTY for a fuser zone. -/
def Mach.outLimits (m : Mach) (n : Nat) : Option (Rat × Rat) :=
  if 70 ≤ n then none
  else if 22 ≤ n ∧ n < 28 then
    let t : Rat := (min 20000 (m.rdA (0xC00034 + 0x10000 * (n - 22))).toNat : Nat)
    some (-t, t)
  else if 54 ≤ n ∧ n < 58 then
    let c := m.rdA (fsrBase (n - 54) + 0x14)
    some (0, if c = 0 then 1 else (fieldOf c 24 8 : Rat) / 100)
  else some (loopLimits n)

/-- LOOP_LOAD's checks (R495 to R497): the payload offset of the first bad field. -/
def Mach.loopBad (m : Mach) (n : Nat) (d : List Byte) : Option Nat :=
  let trig := loopTrig d
  let arg := loopArg d
  let div := numAt d 2 2
  let per := numAt d 4 4
  let input := numAt d 8 2
  let out := loopOut d
  let model := numAt d 13 1
  let free := decide (70 ≤ n)
  let pos := decide (14 ≤ n ∧ n < 22)
  let dens := decide (64 ≤ n ∧ n < 70)
  let bind := loopTrigger n
  let w (o : Nat) : Word := wordAt d o
  let fin (o : Nat) : Bool := ffinite (w o)
  let lo := fval (w 32)
  let hi := fval (w 36)
  let within (q : Rat) : Bool := match m.outLimits n with
    | some (a, b) => decide (a ≤ q ∧ q ≤ b)
    | none => true
  let trigBad := decide (4 < trig) || (!free && (if pos then trig != 0 && trig != 4 else trig != bind.1))
  let argBad := if pos then (if trig = 4 then arg != n - 14 else arg != 0)
    else if !free then arg != bind.2.1
    else match trig with
      | 2 => decide (stationsOf m.part ≤ arg)
      | 3 => decide (stationsOf m.part ≤ arg)
      | 4 => false
      | _ => arg != 0
  let divBad := if trig = 4 then decide (div < 1 ∨ 1024 < div) else div != 0
  let perBad := if trig = 1 then decide (per < 50 ∨ 10000000 < per ∨ per % 50 ≠ 0) else per != 0
  let inBad := if free then trig != 0 && !inputOk m.part input else input != 0
  let outBad :=
    if free then
      if trig = 4 then out != 0x800 + arg
      else out != 0 && !(out / 256 == 8 && spCommanded (out % 256) && loopFitted m.part (out % 256))
    else if 58 ≤ n ∧ n < 64 then out / 256 != 1 || decide (steppersOf m.part ≤ out % 256)
    else out != 0
  let descOf (k : Nat) : List Byte := if k = n then d else (m.loopOf k).desc
  let chain := (List.range 256).any (fun k => decide (3 < chainDepth descOf 4 k))
  let rate := (List.range 256).foldl (fun r k => if loopFitted m.part k then r + loopRate descOf 4 k else r) (0 : Rat)
  firstBad [(trigBad, 4), (argBad || chain, 5), (divBad, 6), (perBad, 8), (inBad, 12), (outBad, 14),
    (decide (1 < numAt d 12 1), 16), (decide (2 < model) || (dens && model != 0), 17), (decide (2 < numAt d 14 1), 18),
    ((model == 0) != (numAt d 15 1 == 0), 19), (!fin 16, 20), (!fin 20, 24), (!fin 24, 28),
    (!fin 28 || decide (fval (w 28) < 0), 32), (!fin 32 || !within lo, 36),
    (!fin 36 || !within hi || decide (hi ≤ lo), 40), (!fin 40 || decide (fval (w 40) < 0), 44), (!fin 44, 48),
    (!fin 48, 52), (!dens && !fin 52, 56),
    (if dens then w 56 != 0 else !fin 56 || (model != 0 && decide (fval (w 56) ≤ 0)), 60),
    (if dens then w 60 != 0 else !fin 60, 64), (decide (3200000 < rate), 4)]

/-! ### Bindings (R494, R499) -/

/-- Whether a loop's binding applies (R499). -/
def Mach.loopApplies (m : Mach) (n : Nat) : Bool :=
  let d := (m.loopOf n).desc
  if n < 14 then m.motorState n == 4 || m.motorState n == 5
  else if n < 22 then loopTrig d == 4 && m.motorState (n - 14) == 4
  else if n < 28 then true
  else if n < 54 then m.hvState (n - 28) == 1 || m.hvState (n - 28) == 2
  else if n < 58 then
    (m.fsrState (n - 54) == 1 || m.fsrState (n - 54) == 2) && !m.bitA (0xF60800 + 4 * ((n - 54) / 2)) 1
  else if n < 64 then m.stepState (loopOut d % 256) == 3
  else if n < 70 then
    engLive m.eng && hasBit (((tabFind m.jobs m.armed).map Job.stations).getD 0) (n - 64)
  else loopTrig d != 0

/-- The full scale of an HV mode (R513): the largest magnitude of its range. -/
def hvScale (h mode : Nat) : Nat :=
  let kind := if h < 2 then 4 + h else (h - 2) % 4
  match kind, mode with
  | 4, 2 => 250000
  | 4, _ => 6000
  | 5, _ => 4000
  | 0, _ => 1500
  | 1, _ => 800
  | 2, 2 => 100000
  | 2, _ => 3000
  | _, _ => 600

/-- The level that an HV output's loop regulates: the DC level or the current, or the amplitude in AC mode (R513). -/
def Mach.hvLevel (m : Mach) (h : Nat) : Int :=
  if m.getA (hvBase h) 20 4 = 4 then m.getA (hvBase h + 0x14) 0 16 else signedOf 32 (m.rdA (hvBase h + 0xC)).toNat

/-- The set-point a loop works toward (R494). -/
def Mach.loopSp (m : Mach) (n : Nat) : Word :=
  let l := m.loopOf n
  if n < 14 then
    let cmd := f32 (((m.motorOf n).cmd : Rat) / 10000)
    if n < 8 ∧ (m.loopOf (14 + n)).st = 1 then fadd cmd (m.loopOf (14 + n)).u else cmd
  else if n < 28 then 0
  else if n < 54 then
    let h := n - 28
    f32 ((m.hvLevel h : Rat) / (hvScale h (m.getA (hvBase h) 20 4) : Nat))
  else if n < 58 then f32 ((m.getA (fsrBase (n - 54) + 8) 16 16 : Rat) / 10)
  else l.sp

/-- An input that the module has in its own state (R494, R496). -/
def Mach.loopInput (m : Mach) (n : Nat) : Option Word :=
  let l := m.loopOf n
  if 14 ≤ n ∧ n < 22 then
    some (f32 (((m.rdA64 (mdrBase (n - 14) + 0x1C) * 5859375 - l.ref : Int) : Rat) / 384000000000))
  else if n < 70 then none
  else
    let code := numAt l.desc 8 2
    let k := code % 256
    match code / 256 with
    | 1 =>
      let mode := m.getA (hvBase k) 20 4
      let v := signedOf 32 (m.rdA (hvBase k + (if mode = 2 then 0x1C else 0x18))).toNat
      some (f32 ((v : Rat) / (hvScale k mode : Nat)))
    | 2 => some (f32 ((signedOf 16 (m.getA (0xF60400 + 4 * k) 16 16) : Rat) / 10))
    | 3 => some (f32 ((signedOf 32 (m.rdA (mdrBase k + 0xC)).toNat : Rat) / 16))
    | 4 => some (m.loopOf (58 + k)).y
    | 6 => some (f32 ((signedOf 32 (m.rdA (encBase k + 0x20)).toNat : Rat) / 16))
    | 7 => some (m.loopOf k).u
    | _ => none

/-- A loop starts (R499): a position loop's reference starts where the motor stands; density loops carry u, i and d (R507). -/
def Mach.loopStart (m : Mach) (n : Nat) (y : Word) : Mach :=
  let dens := decide (64 ≤ n ∧ n < 70)
  let pos := decide (14 ≤ n ∧ n < 22)
  let y0 : Word := if pos then 0 else y
  m.modLoop n (fun l => { l with
    st := 1, r := y0, y := y0, i := if dens then l.i else 0, d := if dens then l.d else 0, m := y0, w := 0, bad := 0
    good := 0, sp := if spCommanded n && !l.spGiven then y0 else l.sp, inner := 0
    ref := if pos then m.rdA64 (mdrBase (n - 14) + 0x1C) * 5859375 else l.ref })

/-- The developer output of a station takes its level corrected by the density loop (R507). -/
def Mach.developer (m : Mach) (h : Nat) : Mach :=
  let level := signedOf 32 (m.rdA (hvBase h + 8)).toNat
  let s := (h - 2) / 4
  let isDev := decide (2 ≤ h) && (h - 2) % 4 == 1
  let l := m.loopOf (64 + s)
  let out : Int := if isDev then
      clampInt (-800) (-100) (m.quot 60 ((level : Rat) * (1 + fval (wordAt l.desc 44) * fval l.u)).num
        ((level : Rat) * (1 + fval (wordAt l.desc 44) * fval l.u)).den)
    else level
  m.wrB (hvBase h + 0xC) (BitVec.ofInt 32 (if isDev && decide (level = 0) then 0 else out))

/-- A density sample corrects the curves of its station (R507): the corrected curves go to the shadow bank, or wait while a
ramp runs (R380, R381). -/
def Mach.densityCurves (m : Mach) (s : Nat) : Mach :=
  let l := m.loopOf (64 + s)
  let k : Rat := 1 + fval (wordAt l.desc 48) * fval l.u
  let set := m.stnSet s
  let off := numAt set 96 4
  let curve := (List.range 1024).map (fun i =>
    let v := roundHalf ((numAt set (off + 2 * i) 2 : Rat) * k)
    (clampInt 0 4095 v).toNat)
  m.modStn s (fun t =>
    if t.rampLeft = 0 then
      let n := max 1 (m.getA (scbBase s + 0x1C) 16 16)
      { t with trcShadow := some curve, rampLeft := n, rampLen := n }
    else { t with trcQueued := some curve })

/-- The output of a loop acts (R494). -/
def Mach.loopAct (m : Mach) (n : Nat) : Mach :=
  let l := m.loopOf n
  let u := fval l.u
  if n < 14 then m.setTorque n (m.quot 61 (u * 4096).num (u * 4096).den)
  else if n < 22 then m
  else if n < 28 then m.wrB (0xC00030 + 0x10000 * (n - 22)) (BitVec.ofInt 32 (m.quot 61 u.num u.den))
  else if n < 54 then
    let h := n - 28
    let fs : Nat := hvScale h (m.getA (hvBase h) 20 4)
    let meas := fval l.y * fs
    let off := if m.getA (hvBase h) 20 4 = 2 then 0x1C else 0x18
    let m1 := m.wrB (hvBase h + off) (BitVec.ofInt 32 (m.quot 62 meas.num meas.den))
    m1.putB (hvBase h) 29 3 (if l.r = m.loopSp n then 2 else 1)
  else if n < 58 then m.putB (fsrBase (n - 54) + 0xC) 0 16 (m.quot 61 (u * 10000).num (u * 10000).den).toNat
  else if n < 64 then m.gearScale (loopOut l.desc % 256) u
  else if n < 70 then
    (m.developer (3 + 4 * (n - 64))).densityCurves (n - 64)
  else if loopOut l.desc / 256 = 8 && loopTrig l.desc != 4 then
    m.modLoop (loopOut l.desc % 256) (fun t => { t with sp := l.u, spGiven := true })
  else m

/-! ### The sample (R498) -/

/-- What one sample computes from a descriptor: t, y, the set-point, and whether the integrator is held. -/
def pidSample (l : Loop) (t y sp : Word) (held : Bool) : Loop :=
  let d (o : Nat) : Word := wordAt l.desc o
  let rev := numAt l.desc 12 1 = 1
  let rate := d 40
  let r := if fval rate = 0 then sp
           else
             let lim := fmul rate t
             fadd l.r (fclamp (fsub sp l.r) (fneg lim) lim)
  let e := if rev then fsub y r else fsub r y
  let tf := d 28
  let alpha := fdiv tf (fadd tf t)
  let sign : Word := if rev then f32 (-1) else f32 1
  let dd := fsub (fmul alpha l.d)
    (fdiv (fmul (fmul (fmul sign (fsub (f32 1) alpha)) (d 24)) (fsub y l.y)) t)
  let kpe := fmul (d 16) e
  let i0 := if l.loaded then fsub (fsub l.u kpe) dd else l.i
  let v := fadd (fadd kpe i0) dd
  let u := fclamp v (d 32) (d 36)
  let sat := !feq v u
  let i1 := if !sat && !held then fclamp (fadd i0 (fmul (fmul (d 20) t) e)) (d 32) (d 36) else i0
  { l with r := r, d := dd, u := u, sat := sat, held := held, i := i1, y := y, sp := sp, loaded := false
           samples := (l.samples + 1) % 2 ^ 32 }

/-- The model of the plant advances by one sample (R502). -/
def modelStep (l : Loop) (t : Word) : Word × Word :=
  let d (o : Nat) : Word := wordAt l.desc o
  let drive := fsub (fadd (fmul (d 44) l.u) (d 60)) l.m
  if numAt l.desc 13 1 = 1 then (fadd l.m (fmul (fdiv t (fadd (d 48) t)) drive), l.w)
  else if numAt l.desc 13 1 = 2 then
    let w := fadd l.w (fmul t (fsub (fmul (fmul (d 48) (d 48)) drive) (fmul (fmul (fmul (f32 2) (d 52)) (d 48)) l.w)))
    (fadd l.m (fmul t w), w)
  else (l.m, l.w)

/-- Whether a loop belongs to the armed job (R532). -/
def Mach.jobLoop (m : Mach) (n : Nat) : Bool :=
  let st := ((tabFind m.jobs m.armed).map Job.stations).getD 0
  engLive m.eng &&
    (if n < 14 then m.bitA (mdrBase n) 9
     else if n < 22 then m.bitA (mdrBase (n - 14)) 9
     else if n < 28 then hasBit st (n - 22)
     else if n < 54 then m.bitA (hvBase (n - 28)) 26
     else if n < 58 then false
     else if n < 64 then hasBit st (n - 58)
     else if n < 70 then hasBit st (n - 64)
     else false)

/-- A log entry of the control engine, the HV outputs or the fuser. -/
def Mach.logCtl (m : Mach) (n code sev : Nat) (cls : Nat := 0xFFFF) : Mach := m.logM 0x0F n code sev [] cls

/-- A loop enters SAFE (R503): its output takes its safe value. -/
def Mach.loopSafe (m : Mach) (n : Nat) : Mach :=
  let m1 := ((m.modLoop n (fun l => { l with st := 3 })).setB (0xF0001C + 0x80 * n) 1 true).raise 96
  let m2 := m1.logCtl n 0x0002 3
  if n < 14 then m2.motorFault n
  else if n < 22 then m2.motorFault (n - 14)
  else if n < 28 then m2.wrB (0xC00030 + 0x10000 * (n - 22)) 0
  else if n < 54 then (m2.hvRest (n - 28) 0).setB (hvBase (n - 28) + 4) 3 true
  else if n < 58 then m2.fsrRest (n - 54) 0
  else if n < 64 then (m2.modLoop n (fun l => { l with u := 0 })).gearScale (loopOut (m.loopOf n).desc % 256) 0
  else m2

/-- A plausibility fault (R502, R503, R532). -/
def Mach.plausibility (m : Mach) (n : Nat) : Mach :=
  let m1 := ((m.setB (0xF0001C + 0x80 * n) 0 true).raise 96).logCtl n 0x0001 2 0x0F
  let r := m1.countFault 0x0F 0 n
  let m2 := r.1.modLoop n (fun l => { l with m := l.y, w := 0, bad := 0 })
  if r.2 then
    let m3 := (m2.setB (0xF0001C + 0x80 * n) 31 true).loopSafe n
    if m.jobLoop n then m3.faultEngine 5 else m3
  else match numAt (m.loopOf n).desc 14 1 with
    | 1 => m2.modLoop n (fun l => { l with st := 2, good := 0 })
    | 2 => m2.loopSafe n
    | _ => m2

/-- The hardware limits of an HV output hold its loop's integrator (R517). -/
def Mach.loopHeld (m : Mach) (n : Nat) : Bool :=
  (decide (28 ≤ n ∧ n < 54) && (m.bitA (hvBase (n - 28)) 28 || m.bitA (hvBase (n - 28)) 27))

/-- One sample of a loop that runs or is held by ACTION HOLD (R498, R502, R503). -/
def Mach.sampleLoop (m : Mach) (n : Nat) (t y : Word) (held : Bool) : Mach :=
  let l0 := m.loopOf n
  let mw := modelStep l0 t
  let hold := decide (l0.st = 2)
  let new := pidSample l0 t y (m.loopSp n) (held || hold || m.loopHeld n)
  let l1 := if hold then { new with u := l0.u } else new
  let model := numAt l0.desc 13 1
  let tol := wordAt l0.desc 56
  let off := model != 0 && flt tol (fabs (fsub y mw.1))
  let bad := if off then l0.bad + 1 else 0
  let good := if off then 0 else l0.good + 1
  let l2 := { l1 with m := mw.1, w := mw.2, bad := bad, good := good, disagree := off
                      st := if hold && decide (64 ≤ good) then 1 else l0.st }
  let m1 := (m.modLoop n (fun _ => l2)).loopAct n
  if model != 0 && decide (numAt l0.desc 15 1 ≤ bad) then m1.plausibility n else m1

/-- A loop starts when its binding begins to apply, and rests when it ceases (R499); then it samples. Loops cascaded over it
run first, in the same tick, at every DIV-th sample (R500). -/
def Mach.tickLoop (m : Mach) (n : Nat) (t y : Word) : Nat → Mach
  | 0 => m
  | fuel + 1 =>
    if !m.loopApplies n then m.loopIdle n
    else if (m.loopOf n).st = 3 then m
    else
      let m1 := if (m.loopOf n).st = 4 || (m.loopOf n).st = 0 then m.loopStart n y else m
      let c := (m1.loopOf n).inner + 1
      let m2 := m1.modLoop n (fun l => { l with inner := c })
      let outers := (List.range 256).filter (fun k =>
        let d := (m2.loopOf k).desc
        loopTrig d == 4 && loopArg d == n && decide (c % (max 1 (numAt d 2 2)) = 0) && loopFitted m.part k)
      let m3 := outers.foldl (fun u k =>
        let div := max 1 (numAt (u.loopOf k).desc 2 2)
        let u1 := if k < 22 then u.modLoop k (fun l => { l with ref := l.ref + (u.motorOf n).cmd * 64 * div }) else u
        match u1.loopInput k with
        | some yk =>
          let u2 := if (u1.loopOf n).sat then u1.modLoop k (fun l => { l with held := true }) else u1
          let u3 := u2.tickLoop k (fmul (f32 div) t) yk fuel
          if 70 ≤ k then u3.modLoop n (fun l => { l with sp := (u3.loopOf k).u, spGiven := true }) else u3
        | none => u1) m2
      let outerHeld := (List.range 256).any (fun k =>
        loopTrig (m3.loopOf n).desc == 4 && k == loopArg (m3.loopOf n).desc && (m3.loopOf k).sat)
      m3.sampleLoop n t y outerHeld

/-- The sample period of a TIMER loop, in seconds (R498). -/
def loopPeriod (desc : List Byte) : Word := f32 ((numAt desc 4 4 : Rat) / 1000000)

/-- The time between two samples of a TIMER loop: its period; in DOZE, Drone runs the zone loops at 50 Hz (R531). -/
def Mach.loopTime (m : Mach) (n : Nat) : Word :=
  if 54 ≤ n ∧ n < 58 ∧ 2 ≤ m.getA 0x20004 19 3 then f32 (1 / 50) else loopPeriod (m.loopOf n).desc

/-- LOOP_SAMPLE: R498 to R501, R504. A TIMER loop samples; a reading that fails skips the sample. In DOZE and HIBERNATE the control engines
are stopped (R26), and only Drone's fuser standby goes on. -/
def execLoopSample (loop : Nat) (y : Option Word) (late : Bool) (s : State) : Host.Outcome State Fault Refusal :=
  onM (fun m =>
    let d := (m.loopOf loop).desc
    if !loopFitted m.part loop || loopTrig d != 1 || (decide (2 ≤ m.getA 0x20004 19 3) && !decide (54 ≤ loop ∧ loop < 58)) then m
    else
      let m0 := if 28 ≤ loop ∧ loop < 54 then m.rampHv (loop - 28) else m
      let m1 := if late then ((m0.setB (0xF0001C + 0x80 * loop) 2 true).raise 97).logCtl loop 0x0003 1 else m0
      match m1.loopInput loop, y with
      | some v, _ => m1.tickLoop loop (m.loopTime loop) v 3
      | none, some v => m1.tickLoop loop (m.loopTime loop) v 3
      | none, none =>
        let m2 := m1.setB (0xF0001C + 0x80 * loop) 3 true
        if m1.loopApplies loop then m2.modLoop loop (fun l => { l with held := true }) else m2.loopIdle loop) s

/-- The polygon phase loop and the free loops of a station's sweeps sample at a used sweep (R421, R498). The time since the
last sample is measured, so it is free. `hold` says that lines come from sweeps or SYNC is not LOCKED. -/
def Mach.sweepLoops (m : Mach) (s : Nat) (phi : Int) (hold : Bool) : Mach :=
  let t := fabs (Config.freeWord m.fresh)
  let m1 := if hold then m.modLoop (22 + s) (fun l => { l with held := true })
            else m.tickLoop (22 + s) t (f32 (phi : Rat)) 3
  (List.range 186).foldl (fun u i =>
    let k := 70 + i
    let d := (u.loopOf k).desc
    if loopTrig d = 2 ∧ loopArg d = s then
      match u.loopInput k with
      | some y => u.tickLoop k t y 3
      | none => u
    else u) m1

/-- A density window closes (R506): the loop samples with the mean of its readings, unless the sample is spoiled. -/
def Mach.closeWin (m : Mach) (w : DensWin) : Mach :=
  let m1 := m.modDrv (fun d => { d with dens := d.dens.filter (fun x => !(x.station == w.station && x.page == w.page)) })
  if w.spoiled || decide (w.count < 4) then m1
  else m1.tickLoop (64 + w.station) (f32 1) (f32 ((w.sum : Rat) / (1000 * w.count : Nat))) 3

/-- Close the density windows that the job's channel has passed, and sample the free loops of their pages. -/
def Mach.closeWins (m : Mach) (pos : Int) : Mach :=
  (m.drv.dens.filter (fun w => decide (w.hi < pos))).foldl (fun t w =>
    let t1 := t.closeWin w
    (List.range 186).foldl (fun u i =>
      let k := 70 + i
      let d := (u.loopOf k).desc
      if loopTrig d = 3 ∧ loopArg d = w.station then
        match u.loopInput k with
        | some y => u.tickLoop k (f32 1) y 3
        | none => u
      else u) t1) m

/-- LOOP_STATE_SYNC: R508. Both sides share one loop state in this model, so the transfer changes nothing. -/
def execLoopStateSync (s : State) : Host.Outcome State Fault Refusal := onM id s

/-- DENSITY_READ: R504, R506. -/
def execDensityRead (station : Nat) (reading : Option Nat) (s : State) : Host.Outcome State Fault Refusal :=
  onM (fun m =>
    let chan := ((tabFind m.jobs m.armed).map Job.encoder).getD 0
    let pos := m.encPos chan
    let m1 := match reading with
      | some v =>
        if v = 0xFFFF then m.setB (0xF0001C + 0x80 * (64 + station)) 3 true
        else m.modDrv (fun d => { d with dens := d.dens.map (fun (w : DensWin) =>
          if w.station = station ∧ w.lo ≤ pos ∧ pos ≤ w.hi then { w with sum := w.sum + v, count := w.count + 1 } else w) })
      | none => m.setB (0xF0001C + 0x80 * (64 + station)) 3 true
    if stationsOf m.part ≤ station then m else m1.closeWins pos) s

/-! ### Loop commands -/

/-- LOOP_LOAD's plan: R495, R497, R503, R507, R532. -/
def planLoopLoad (msg : Msg) (m : Mach) : Plan :=
  let n := numAt msg.payload 0 4
  let d := bytesAt msg.payload 4 64
  { absent := decide (n < 256) && !loopFitted m.part n
    param := if 256 ≤ n then some 0 else m.loopBad n d
    refuse := if m.jobLoop n then some (stInUse, n) else none
    act := fun t =>
      let t1 := (t.clearFault 0x0F 0 n).setB (0xF0001C + 0x80 * n) 31 false
      let dens := decide (64 ≤ n ∧ n < 70)
      t1.modLoop n (fun l => { l with
        desc := d, loaded := (l.st == 1 || l.st == 2)
        st := if 70 ≤ n ∧ loopTrig d = 0 then 0 else if l.st = 3 ∨ l.st = 0 then 4 else l.st
        u := if dens then 0 else l.u, i := if dens then 0 else l.i, d := if dens then 0 else l.d }) }

/-- LOOP_LOAD: R497. -/
def execLoopLoad (msg : Msg) (s : State) : Host.Outcome State Fault Refusal :=
  onM (fun m => m.runCmd { opcode := 0x0801, lenMin := 68, lenMax := 68, states := inC } msg (planLoopLoad msg)) s

/-- The station whose loop a commanded loop is (R494): toner concentration and print density; a free loop is no station's own. -/
def loopStation (n : Nat) : Option Nat :=
  if 58 ≤ n ∧ n < 64 then some (n - 58) else if 64 ≤ n ∧ n < 70 then some (n - 64) else none

/-- LOOP_SETPOINT's plan: R197, R509. -/
def planLoopSetpoint (msg : Msg) (m : Mach) : Plan :=
  let n := numAt msg.payload 0 4
  let used := match tabFind m.jobs m.armed, loopStation n with
    | some j, some s => engLive m.eng && hasBit j.stations s
    | _, _ => false
  { absent := decide (n < 256) && !loopFitted m.part n
    param := firstBad [(decide (256 ≤ n) || !spCommanded n, 0), (!ffinite (wordAt msg.payload 4), 4)]
    refuse := if used then some (stInUse, n) else none
    act := fun t => t.modLoop n (fun l => { l with sp := wordAt msg.payload 4, spGiven := true }) }

/-- LOOP_SETPOINT: R509. -/
def execLoopSetpoint (msg : Msg) (s : State) : Host.Outcome State Fault Refusal :=
  onM (fun m => m.runCmd { opcode := 0x0802, lenMin := 8, lenMax := 8, states := inCAPD } msg (planLoopSetpoint msg)) s

/-! ### High-voltage outputs (R513 to R522) -/

/-- The kind of an HV output: 0 charge, 1 developer, 2 first transfer, 3 cleaning, 4 second transfer, 5 detack. -/
def hvKind (h : Nat) : Nat := if h < 2 then 4 + h else (h - 2) % 4

/-- Whether a mode is an output's own (R513); OFF is every output's. -/
def hvModeOk (h mode : Nat) : Bool :=
  match hvKind h, mode with
  | _, 0 => true
  | 5, 4 => true
  | 5, _ => false
  | 1, 3 => true
  | 2, 2 => true
  | 4, 2 => true
  | _, 1 => true
  | _, _ => false

/-- The range of LEVEL in a mode (R513). -/
def hvRange (h mode : Nat) : Int × Int :=
  match hvKind h, mode with
  | 0, _ => (-1500, -300)
  | 1, _ => (-800, -100)
  | 2, 2 => (0, 100000)
  | 2, _ => (200, 3000)
  | 3, _ => (-600, 600)
  | 4, 2 => (0, 250000)
  | 4, _ => (500, 6000)
  | _, _ => (0, 0)

/-- The range of LIMIT in a mode (R513, R514). -/
def hvLimitRange (h mode : Nat) : Nat × Nat :=
  match hvKind h, mode with
  | 0, _ => (0, 500000)
  | 1, _ => (0, 200000)
  | 2, 2 => (200, 3000)
  | 2, _ => (0, 100000)
  | 3, _ => (0, 100000)
  | 4, 2 => (500, 6000)
  | 4, _ => (0, 250000)
  | _, _ => (0, 300000)

/-- The ranges of AC_FREQ and AC_VPP in a mode; both 0 without AC (R513). -/
def hvAcRange (h mode : Nat) : (Nat × Nat) × (Nat × Nat) :=
  if mode = 4 then ((400, 2000), (0, 4000)) else if mode = 3 ∧ hvKind h = 1 then ((1000, 5000), (0, 1500)) else ((0, 0), (0, 0))

/-- The stations whose path an HV output is (R193, R514): every station of the armed job for outputs 0 and 1. -/
def Mach.hvStations (m : Mach) (h : Nat) : List Nat :=
  if h < 2 then bitsOf (((tabFind m.jobs m.armed).map Job.stations).getD 0) 6 else [(h - 2) / 4]

/-- HV_SET's plan: R513, R514, R532. -/
def planHvSet (msg : Msg) (m : Mach) : Plan :=
  let p := msg.payload
  let h := numAt p 0 1
  let mode := numAt p 1 1
  let level := intAt p 4 4
  let out (v : Nat) (r : Nat × Nat) : Bool := decide (v < r.1 ∨ r.2 < v)
  let on := mode != 0
  let r := hvRange h mode
  let ac := hvAcRange h mode
  { absent := decide (h ≤ 25) && decide (hvOf m.part ≤ h)
    param := firstBad [(decide (25 < h), 0), (!hvModeOk h mode, 1), (on && out (numAt p 2 2) ac.1, 2),
      (on && decide (level < r.1 ∨ r.2 < level), 4), (on && out (numAt p 8 4) (hvLimitRange h mode), 8),
      (on && out (numAt p 12 4) ac.2, 12)]
    need := some { gap := Config.hvGap, stations := m.hvStations h, free := !m.bitA (hvBase h) 26 }
    act := fun t =>
      let b := hvBase h
      let t1 := ((t.wrB (b + 8) (wordAt p 4)).wrB (b + 0x10) (wordAt p 8)).wrB (b + 0x14)
        (BitVec.ofNat 32 (numAt p 2 2 * 65536 + numAt p 12 2))
      let t2 := ((t1.putB b 20 4 mode).developer h).setB (b + 4) 31 false
      let t3 := (t2.clearFault 0x10 0 h).clearFault 0x11 0 h
      if !on && (t.hvState h = 1 || t.hvState h = 2 || t.hvState h = 3) then t3.hvRest h 0 else t3 }

/-- The definition of HV_SET's row. -/
def cmdHvSet : CmdDef := { opcode := 0x0803, lenMin := 16, lenMax := 16, states := inCAPD }

/-- HV_SET: R514. -/
def execHvSet (msg : Msg) (s : State) : Host.Outcome State Fault Refusal :=
  onM (fun m => m.runCmd cmdHvSet msg (planHvSet msg)) s

/-- The HV loop permits its outputs (R74, R75). -/
def Mach.hvPermit (m : Mach) : Bool := m.ilk.hvA && m.ilk.hvB && !m.ilk.hvLock

/-- The laser loop permits its outputs (R74, R75). -/
def Mach.laserPermit (m : Mach) : Bool := m.ilk.laserA && m.ilk.laserB && !m.ilk.laserLock

/-- An HV output starts (R515, R517, R518): it rises from its present voltage. -/
def Mach.hvStart (m : Mach) (h : Nat) : Mach :=
  (m.putB (hvBase h) 29 3 1).modLoop (28 + h) (fun l => { l with st := if l.st = 3 then 4 else l.st })

/-- HV_ENABLE's plan: R515. -/
def planHvEnable (msg : Msg) (m : Mach) : Plan :=
  let mask := numAt msg.payload 0 4
  let on := numAt msg.payload 4 4 = 1
  let hs := bitsOf mask 32
  { absent := hs.any (fun h => decide (h ≤ 25) && decide (hvOf m.part ≤ h))
    param := firstBad [(hs.any (fun h => decide (25 < h) || m.getA (hvBase h) 20 4 == 0), 0),
      (decide (1 < numAt msg.payload 4 4), 4)]
    refuse := if !on ∧ hs.any (fun h => m.bitA (hvBase h) 26) then
        some (stInUse, (hs.find? (fun h => m.bitA (hvBase h) 26)).getD 0)
      else if !m.hvPermit then some (stInterlock, 2) else none
    act := fun t => hs.foldl (fun u h =>
      if on then (if u.bitA (hvBase h + 4) 31 then u else if u.hvState h = 1 || u.hvState h = 2 || u.hvState h = 3 then u else u.hvStart h)
      else u.hvRest h 0) t }

/-- HV_ENABLE: R515. -/
def execHvEnable (msg : Msg) (s : State) : Host.Outcome State Fault Refusal :=
  onM (fun m => m.runCmd { opcode := 0x0804, lenMin := 8, lenMax := 8, states := inCAPD } msg (planHvEnable msg)) s

/-- Whether an HV output drives. -/
def Mach.hvLive (m : Mach) (h : Nat) : Bool := decide (h < hvOf m.part) && (m.hvState h == 1 || m.hvState h == 2)

/-- An HV class counts; lasting locks the output in FAULT (R532). -/
def Mach.hvClass (m : Mach) (h cls : Nat) : Mach :=
  let r := m.countFault cls 0 h
  if r.2 then
    let t := (r.1.hvRest h 4).setB (hvBase h + 4) 31 true
    if m.bitA (hvBase h) 26 && engLive m.eng then t.faultEngine 5 else t
  else r.1

/-- HV_LIMITING: R517. -/
def execHvLimiting (output : Nat) (s : State) : Host.Outcome State Fault Refusal :=
  onM (fun m =>
    if !m.hvLive output then m
    else
      let cur := m.getA (hvBase output) 20 4 == 2
      if m.bitA (hvBase output) (if cur then 27 else 28) then m
      else ((m.setB (hvBase output) (if cur then 27 else 28) true).raise 99).logCtl output (if cur then 0x0103 else 0x0102) 1) s

/-- HV_LIMITING_END: R517. -/
def execHvLimitingEnd (output : Nat) (s : State) : Host.Outcome State Fault Refusal :=
  onM (fun m => if output < hvOf m.part then m.putB (hvBase output) 27 2 0 else m) s

/-- HV_TRIP: R517, R532. -/
def execHvTrip (output : Nat) (s : State) : Host.Outcome State Fault Refusal :=
  onM (fun m =>
    if m.hvLive output && (m.bitA (hvBase output) 28 || m.bitA (hvBase output) 27) then
      let m1 := (m.hvRest output 3).setB (hvBase output + 4) 1 true
      ((m1.raise 99).logCtl output 0x0104 3 0x11).hvClass output 0x11
    else m) s

/-- HV_ARC: R518, R532. -/
def execHvArc (output : Nat) (s : State) : Host.Outcome State Fault Refusal :=
  onM (fun m =>
    if m.hvLive output then
      let m1 := ((m.hvRest output 3).setB (hvBase output + 4) 0 true).addSatB (hvBase output + 0x20) 1
      ((m1.raise 98).logCtl output 0x0101 2 0x10).hvClass output 0x10
    else m) s

/-- HV_RESTART: R517, R518. -/
def execHvRestart (output : Nat) (s : State) : Host.Outcome State Fault Refusal :=
  onM (fun m => if m.hvState output = 3 && decide (output < hvOf m.part) then m.hvStart output else m) s

/-- The HV loop has opened (R520). -/
def Mach.hvOpened (m : Mach) : Mach :=
  let m1 := (List.range (hvOf m.part)).foldl (fun t h => (t.hvRest h 5).setB (hvBase h + 4) 2 true) m
  let m2 := ((m1.setB 0xF40800 0 true).raise 100).logCtl noInst 0x0105 3
  if engLive m.eng then m2.faultEngine 2 else m2

/-! ### The fuser (R524 to R534) -/

/-- FUSER_SET's bytes as the channel holds them. -/
def Mach.fsrCfg (m : Mach) (c : Nat) : List Byte :=
  (List.range 3).flatMap (fun k => wordBytes (m.rdA (fsrBase c + 0x14 + 4 * k)))

/-- Whether a channel has been configured (R528): MAX_DUTY is at least 1 then. -/
def fsrSet (cfg : List Byte) : Bool := numAt cfg 3 1 != 0

/-- The inputs a channel names (R527). -/
def fsrInputs (cfg : List Byte) : List Nat :=
  let s := numAt cfg 1 1
  if s / 16 = 15 then [s % 16] else [s % 16, s / 16]

/-- The types that a channel gives its inputs: input and whether it is NTC. -/
def fsrTypes (cfg : List Byte) : List (Nat × Bool) :=
  let f := numAt cfg 2 1
  (fsrInputs cfg).zip [hasBit f 0, hasBit f 1]

/-- A temperature in 0.1 °C (FSR_TEMP). -/
def Mach.fsrTemp (m : Mach) (k : Nat) : Int := signedOf 16 (m.getA (0xF60400 + 4 * k) 16 16)

/-- FUSER_SET's plan: R527, R532. -/
def planFuserSet (msg : Msg) (m : Mach) : Plan :=
  let p := msg.payload
  let c := numAt p 0 1
  let sn := numAt p 1 1
  let sp := numAt p 4 2
  let clash := (List.range (fusersOf m.part)).any (fun k => k != c && fsrSet (m.fsrCfg k) &&
    (fsrTypes (m.fsrCfg k)).any (fun a => (fsrTypes p).any (fun b => a.1 == b.1 && a.2 != b.2)))
  { absent := decide (c ≤ 3) && decide (fusersOf m.part ≤ c)
    param := firstBad [(decide (3 < c), 0),
      (decide (7 < sn % 16) || (sn / 16 != 15 && (decide (7 < sn / 16) || sn / 16 == sn % 16)), 1),
      (decide (3 < numAt p 2 1) || clash, 2), (decide (numAt p 3 1 < 1 ∨ 100 < numAt p 3 1), 3), (decide (2500 < sp), 4),
      (decide (3000 < numAt p 6 2 ∨ numAt p 6 2 < sp + 100), 6), (decide (sp < numAt p 8 2), 8),
      (decide (numAt p 10 1 < 1 ∨ 50 < numAt p 10 1), 10), (decide (numAt p 11 1 < 1 ∨ 100 < numAt p 11 1), 11)]
    act := fun t =>
      let t1 := (List.range 3).foldl (fun u k => u.wrB (fsrBase c + 0x14 + 4 * k) (wordAt p (4 * k))) t
      let t2 := (fsrTypes p).foldl (fun u a => u.setB (0xF60400 + 4 * a.1) 1 a.2) t1
      let force := if t.fsrState c = 2 then numAt p 8 2 else sp
      let t3 := t2.wrB (fsrBase c + 8) (BitVec.ofNat 32 (force * 65536 + numAt p 6 2))
      let t4 := t3.modLoop (54 + c) (fun l => { l with
        desc := l.desc.take 36 ++ f32Bytes ((numAt p 3 1 : Rat) / 100) ++ l.desc.drop 40 })
      (((t4.setB (fsrBase c + 4) 31 false).clearFault 0x12 0 c).clearFault 0x13 0 c).clearFault 0x14 0 c }

/-- FUSER_SET: R527. -/
def execFuserSet (msg : Msg) (s : State) : Host.Outcome State Fault Refusal :=
  onM (fun m => m.runCmd { opcode := 0x0805, lenMin := 12, lenMax := 12, states := inCAPDF } msg (planFuserSet msg)) s

/-- The line of a fuser channel (R48). -/
def fsrLine (c : Nat) : Nat := c / 2

/-- FSR_MAINS of a line. -/
def fsrMains (l : Nat) : Nat := 0xF60800 + 4 * l

/-- Whether a line has good crossings. -/
def Mach.lineGood (m : Mach) (l : Nat) : Bool := m.bitA (fsrMains l) 0 && !m.bitA (fsrMains l) 1

/-- A fuser channel starts (R525, R528). -/
def Mach.fsrStart (m : Mach) (c : Nat) : Mach :=
  let cfg := m.fsrCfg c
  let m1 := (m.modFsr c (fun _ => FuserCh.init)).wrB (fsrBase c + 8) (BitVec.ofNat 32 (numAt cfg 4 2 * 65536 + numAt cfg 6 2))
  let m2 := m1.modLoop (54 + c) (fun l => { l with st := if l.st = 3 then 4 else l.st, u := 0 })
  (m2.putB (fsrBase c) 29 3 (if m.lineGood (fsrLine c) then 1 else 5)).setB (fsrBase c) 27 (m.lineGood (fsrLine c))

/-- Whether both cut-out loops are closed (R68). -/
def Mach.cutoutsClosed (m : Mach) : Bool := m.ilk.cut0 && m.ilk.cut1

/-- FUSER_ENABLE's plan: R528, R532. -/
def planFuserEnable (msg : Msg) (m : Mach) : Plan :=
  let mask := numAt msg.payload 0 4
  let on := numAt msg.payload 4 4 = 1
  let cs := bitsOf mask 32
  let hot (c : Nat) : Bool := (fsrInputs (m.fsrCfg c)).any (fun k =>
    decide ((numAt (m.fsrCfg c) 6 2 : Int) - 100 ≤ m.fsrTemp k)) && (m.fsrOf c).hot
  { absent := cs.any (fun c => decide (c ≤ 3) && decide (fusersOf m.part ≤ c))
    param := firstBad [(cs.any (fun c => decide (3 < c) || (on && !fsrSet (m.fsrCfg c))), 0),
      (decide (1 < numAt msg.payload 4 4), 4)]
    state := on && (!m.cutoutsClosed || cs.any (fun c => m.bitA (fsrBase c + 4) 31 || hot c))
    act := fun t => cs.foldl (fun u c =>
      if on then (if u.fsrState c = 1 || u.fsrState c = 5 then u else u.fsrStart c) else u.fsrRest c 0) t }

/-- FUSER_ENABLE: R528. -/
def execFuserEnable (msg : Msg) (s : State) : Host.Outcome State Fault Refusal :=
  onM (fun m => m.runCmd { opcode := 0x0806, lenMin := 8, lenMax := 8, states := inCAPDF } msg (planFuserEnable msg)) s

/-- A fuser fault (R529, R532): the channel goes off into FAULT; a lasting class locks it. -/
def Mach.fsrFault (m : Mach) (c bit code sev cls : Nat) : Mach :=
  let m1 := (m.fsrRest c 4).setB (fsrBase c + 4) bit true
  let r := ((m1.raise 101).logCtl c code sev cls).countFault cls 0 c
  if r.2 then r.1.setB (fsrBase c + 4) 31 true else r.1

/-- Whether a fuser channel is fitted and enabled. -/
def Mach.fsrLive (m : Mach) (c : Nat) : Bool :=
  decide (c < fusersOf m.part) && (m.fsrState c == 1 || m.fsrState c == 2 || m.fsrState c == 5)

/-- The half-cycle that has ended on a channel (R529): HEATER_OPEN after four below 0.5 A. -/
def Mach.halfEnded (m : Mach) (c current : Nat) : Mach :=
  if !m.bitA (fsrBase c) 26 then m
  else
    let run := if current < 500 then (m.fsrOf c).openRun + 1 else 0
    let m1 := ((m.setB (fsrBase c) 26 false).modFsr c (fun f => { f with current := current, openRun := run })).putB
      (fsrBase c + 0xC) 16 16 (satAt 65535 (current / 10))
    if run = 4 then m1.fsrFault c 3 0x0204 2 0x13 else m1

/-- A channel decides its coming half-cycle (R525). -/
def Mach.halfBegins (m : Mach) (c : Nat) (positive : Bool) : Mach :=
  if !(m.fsrState c = 1 || m.fsrState c = 2) then m
  else
    let f := m.fsrOf c
    let sum := fadd f.acc (m.loopOf (54 + c)).u
    let acc := if flt (f32 2) sum then f32 2 else sum
    let fire := !flt acc (f32 1) && (if positive then decide (f.bal ≤ 0) else decide (0 ≤ f.bal))
    if fire then
      ((m.modFsr c (fun g => { g with acc := fsub acc (f32 1), bal := f.bal + (if positive then 1 else -1) })).setB
        (fsrBase c) 26 true).addB (fsrBase c + 0x10) 1
    else m.modFsr c (fun g => { g with acc := acc })

/-- FUSER_ZERO_CROSSING: R524, R525, R528, R529. `currents` are the half-cycle currents in mA rms of the line's channels.
The measured frequency is free within the register. -/
def execFuserZeroCrossing (line : Nat) (positive good : Bool) (currents : List Nat) (s : State) :
    Host.Outcome State Fault Refusal :=
  onM (fun m =>
    let cs := (List.range (fusersOf m.part)).filter (fun c => fsrLine c == line)
    if cs.isEmpty then m
    else
      let m1 := cs.foldl (fun t c => t.halfEnded c (currents.getD (c % 2) 0)) m
      let n := if good then tabGet 0 m.drv.zcGood line + 1 else 0
      let m2 := (m1.modDrv (fun d => { d with zcGood := tabPut d.zcGood line (min n 8) })).putB (fsrMains line) 16 16
        (Config.freeNat m.fresh 70)
      let m3 := if good && !m2.bitA (fsrMains line) 1 then m2.setB (fsrMains line) 0 true else m2
      let m4 := if m3.bitA (fsrMains line) 1 && n = 8 then
          ((((m3.setB (fsrMains line) 1 false).setB (fsrMains line) 0 true).raise 103).logCtl line 0x020A 0)
        else m3
      let m5 := if m4.lineGood line then cs.foldl (fun t c =>
          if t.fsrState c = 5 then (t.putB (fsrBase c) 29 3 1).setB (fsrBase c) 27 true else t) m4
        else m4
      if m5.lineGood line then cs.foldl (fun t c => t.halfBegins c positive) m5 else m5) s

/-- ZC_LOST: R524. -/
def execZcLost (line : Nat) (s : State) : Host.Outcome State Fault Refusal :=
  onM (fun m =>
    let cs := (List.range (fusersOf m.part)).filter (fun c => fsrLine c == line)
    if cs.isEmpty || m.bitA (fsrMains line) 1 then m
    else
      let m1 := ((m.setB (fsrMains line) 1 true).setB (fsrMains line) 0 false).modDrv (fun d => { d with
        zcGood := tabPut d.zcGood line 0 })
      let m2 := cs.foldl (fun t c => (t.setB (fsrBase c) 26 false).loopIdle (54 + c)) m1
      (m2.raise 103).logCtl line 0x0209 2) s

/-- IN_WINDOW of a channel (R528). -/
def Mach.fsrWindow (m : Mach) (c : Nat) : Mach :=
  let cfg := m.fsrCfg c
  let y := m.fsrTemp (numAt cfg 1 1 % 16)
  let sp : Int := m.getA (fsrBase c + 8) 16 16
  let inside := decide (((y - sp).natAbs : Int) ≤ 10 * (numAt cfg 10 1 : Int))
  if m.bitA (fsrBase c) 28 = inside then m
  else
    let m1 := m.setB (fsrBase c) 28 inside
    if m.fsrState c = 1 then (m1.raise 102).logCtl c (if inside then 0x0208 else 0x0207) (if inside then 0 else 1) else m1

/-- FUSER_TEMP_SAMPLE: R526, R528, R529. Temperatures are in 0.1 °C. -/
def execFuserTempSample (temps : List Int) (s : State) : Host.Outcome State Fault Refusal :=
  onM (fun m =>
    let m1 := (List.range 8).foldl (fun t k =>
      match temps[k]? with
      | none => t
      | some v =>
        let out := decide (v < -400 ∨ 3500 < v)
        let n := if out then tabGet 0 t.drv.tempBad k + 1 else 0
        let u := (t.putB (0xF60400 + 4 * k) 16 16 (unsignedOf 16 v)).modDrv (fun d => { d with
          tempBad := tabPut d.tempBad k (min n 3) })
        u.setB (0xF60400 + 4 * k) 0 (decide (3 ≤ n))) m
    (List.range (fusersOf m.part)).foldl (fun t c =>
      let cfg := t.fsrCfg c
      if !fsrSet cfg then t
      else
        let ins := fsrInputs cfg
        let ovr := ins.any (fun k => decide ((numAt cfg 6 2 : Int) ≤ t.fsrTemp k))
        let n := if ovr then (t.fsrOf c).overRun + 1 else 0
        let t1 := t.modFsr c (fun f => { f with overRun := min n 3 })
        let t2 := if t1.fsrLive c && n = 3 then (t1.modFsr c (fun f => { f with hot := true })).fsrFault c 0 0x0201 3 0x14 else t1
        let t3 := if t2.fsrLive c && ins.any (fun k => t2.bitA (0xF60400 + 4 * k) 0) then t2.fsrFault c 1 0x0202 3 0x12 else t2
        t3.fsrWindow c) m1) s

/-- SENSOR_DISAGREE: R529. -/
def execSensorDisagree (ch : Nat) (s : State) : Host.Outcome State Fault Refusal :=
  onM (fun m =>
    if m.fsrLive ch && decide ((fsrInputs (m.fsrCfg ch)).length = 2) then m.fsrFault ch 2 0x0203 2 0x12 else m) s

/-- FUSER_OVERCURRENT: R529. -/
def execFuserOvercurrent (ch : Nat) (s : State) : Host.Outcome State Fault Refusal :=
  onM (fun m => if m.fsrLive ch then m.fsrFault ch 4 0x0205 3 0x13 else m) s

/-- CUTOUT_OPEN: R530. -/
def execCutoutOpen (loop : Nat) (s : State) : Host.Outcome State Fault Refusal :=
  onM (fun m =>
    if 2 ≤ loop then m
    else
      let m1 := { m with ilk := if loop = 0 then { m.ilk with cut0 := false } else { m.ilk with cut1 := false } }
      let m2 := (List.range (fusersOf m.part)).foldl (fun t c => (t.fsrRest c 3).setB (fsrBase c + 4) 5 true) m1
      ((m2.setB 0xF60810 0 true).raise 101).logCtl loop 0x0206 3) s

/-- CUTOUT_LOOP_CLOSED: R68. -/
def execCutoutLoopClosed (loop : Nat) (s : State) : Host.Outcome State Fault Refusal :=
  onM (fun m =>
    if loop = 0 then { m with ilk := { m.ilk with cut0 := true } }
    else if loop = 1 then { m with ilk := { m.ilk with cut1 := true } }
    else m) s

/-! ### PROCESS_READ (R510) -/

/-- CTE_LOOP_STAT (R512). Which of the two engines runs a loop that has sampled is not given: it is
a free bit. -/
def Mach.loopStat (m : Mach) (n : Nat) : Word :=
  let l := m.loopOf n
  let idle := if l.st = 0 then 0 else l.st
  BitVec.ofNat 32 (idle * 2 ^ 29 + b2n l.sat * 2 ^ 28 + b2n l.held * 2 ^ 27 + b2n l.disagree * 2 ^ 26 +
    b2n (decide (0 < l.samples) && Config.freeBool m.fresh (400 + n)) * 2 ^ 25 + b2n (decide (n < 70)) * 2 ^ 24 + l.samples % 65536)

/-- HVG_VOLT, or HVG_CURR with `cur` (R498, R513, R521): what the loop's latest sample gave while the output drives in a mode that
regulates it. A loop that has never run leaves the reset value; otherwise the measurement is not given, so it is free. -/
def Mach.hvMeasured (m : Mach) (h : Nat) (cur : Bool) : Word :=
  if !tabHas m.drv.loops (28 + h) || (m.hvLive h && (m.getA (hvBase h) 20 4 == 2) == cur) then
    m.rdA (hvBase h + (if cur then 0x1C else 0x18))
  else BitVec.ofNat 32 (Config.freeNat m.fresh (if cur then 611 else 610))

/-- CTE_LOAD (R511): the use of the two engines is not given once a loop has run, so it is free then. -/
def Mach.cteLoad (m : Mach) : Word :=
  if m.drv.loops.isEmpty then m.rdA 0xF08000 else BitVec.ofNat 32 (Config.freeNat m.fresh 612)

/-- PROCESS_READ's response (R510). -/
def Mach.processReply (m : Mach) (kind n : Nat) : List Byte :=
  if kind = 0 then
    let l := m.loopOf n
    [m.loopStat n, l.sp, l.r, l.y, l.u, l.i, l.m, BitVec.ofNat 32 l.samples].flatMap wordBytes
  else if kind = 1 then
    let b := hvBase n
    [m.rdA b, m.rdA (b + 0xC), m.hvMeasured n false, m.hvMeasured n true, (m.loopOf (28 + n)).u,
      BitVec.ofNat 32 (m.getA (b + 0x14) 0 16), m.rdA (b + 0x20), m.rdA (0xF0001C + 0x80 * (28 + n))].flatMap wordBytes
  else
    let b := fsrBase n
    let cfg := m.fsrCfg n
    let sup := if numAt cfg 1 1 / 16 = 15 then 0 else m.fsrTemp (numAt cfg 1 1 / 16)
    [m.rdA b, BitVec.ofNat 32 (m.getA (b + 8) 16 16), BitVec.ofInt 32 (m.fsrTemp (numAt cfg 1 1 % 16)), BitVec.ofInt 32 sup,
      (m.loopOf (54 + n)).u, m.rdA (b + 0x10), BitVec.ofNat 32 (10 * m.getA (fsrMains (fsrLine n)) 16 16),
      BitVec.ofNat 32 (m.fsrOf n).current].flatMap wordBytes

/-- PROCESS_READ's plan: R510. -/
def planProcessRead (msg : Msg) (m : Mach) : Plan :=
  let w := numAt msg.payload 0 4
  let kind := w / 256
  let n := w % 256
  let out := match kind with
    | 0 => false
    | 1 => decide (25 < n)
    | 2 => decide (3 < n)
    | _ => true
  let fitted := match kind with
    | 0 => loopFitted m.part n
    | 1 => decide (n < hvOf m.part)
    | _ => decide (n < fusersOf m.part)
  { absent := !out && !fitted
    param := firstBad [(out, 0)]
    reply := m.processReply kind n }

/-- PROCESS_READ: R510. -/
def execProcessRead (msg : Msg) (s : State) : Host.Outcome State Fault Refusal :=
  onM (fun m => m.runCmd { opcode := 0x0807, lenMin := 4, lenMax := 4, states := inCAPDF } msg (planProcessRead msg)) s

end Sys2Proof.Machine
end

