-- ==== Sys2Proof/Machine/Calibration.lean ====
section
/-!
DEFINITION. The calibration group (R214, R536 to R557): running a calibration, the spare converters, the user layer and its
copies, and the station self-test.
-/

namespace Sys2Proof.Machine

/-! ### CAL_RUN (R542 to R545) -/

/-- Whether a mask names a unit of no part, or one that the calibration does not serve (R543). -/
def runMaskBad (id mask : Nat) : Bool :=
  let c := runCal id
  let top := if c = 1 then 16 else if c = 2 || c = 3 then 32 else if c = 6 then 26 else if c = 7 then 8 else 6
  decide (2 ^ top ≤ mask)

/-- Whether a mask names a unit that the part does not have (R543). -/
def runAbsent (p : Part) (id mask : Nat) : Bool :=
  let c := runCal id
  if c = 2 || c = 3 || c = 4 || c = 5 then
    !hasLaser p || (decide (c = 2 ∨ c = 3) && decide (stationsOf p ≤ runStation id ∧ runStation id < 6)) ||
      (decide (c = 4 ∨ c = 5) && (bitsOf mask 6).any (fun s => decide (stationsOf p ≤ s)))
  else if c = 6 then (bitsOf mask 26).any (fun h => decide (hvOf p ≤ h))
  else if c = 8 then (bitsOf mask 6).any (fun s => decide (stationsOf p ≤ s))
  else false

/-- The first bad field of CAL_RUN's payload (R542, R543). -/
def runParam (id mask : Nat) : Option Nat :=
  let c := runCal id
  let beam := c == 2 || c == 3
  firstBad [
    (!(decide (1 ≤ c) && decide (c ≤ 8)), 0),
    (!beam && decide (256 ≤ id), 0),
    (beam && (decide (6 ≤ runStation id) || decide (2 ^ 18 ≤ id) || fieldOf (BitVec.ofNat 32 id) 11 5 != 0), 0),
    (runMaskBad id mask, 4),
    (mask == 0 && (runBeams id mask).isEmpty, 4) ]

/-- Whether every beam of a calibration has a stand-in when they are taken out one after another (R542, R544, R547). -/
def Mach.beamsPath (m : Mach) (s : Nat) (beams : List Nat) : Bool :=
  let spares := (beams.filter (fun b => decide (32 ≤ b))).map (fun b => b - 32)
  let m0 := spares.foldl (fun t k => t.modStn s (fun u => { u with spareFail := setBitN u.spareFail k })) m
  spares.all (fun k => !m.spareOn s k) &&
    ((beams.filter (fun b => decide (b < 32))).foldl (fun (acc : Mach × Bool) b =>
      let t := acc.1.planOut s b
      (t, acc.2 && ((t.spareFor s b).isSome || t.otherPass s b))) (m0, true)).2

/-- The motors that R447 names for the armed job. -/
def Mach.armedMotors (m : Mach) : List Nat :=
  match tabFind m.jobs m.armed with
  | some j => jobMotors j.stations j.led
  | none => []

/-- Whether a station belongs to the armed job. -/
def Mach.stationArmed (m : Mach) (s : Nat) : Bool := (m.stnOf s).job != 0

/-- Whether every instance of a calibration has a path (R542, R544). -/
def Mach.runPath (m : Mach) (id mask : Nat) : Bool :=
  let c := runCal id
  if c = 1 then (bitsOf mask 16).all (fun g => !(m.cal.barred.any (fun key => keyCal key == 1 && keyInst key == g)))
  else if c = 2 || c = 3 then m.beamsPath (runStation id) (runBeams id mask)
  else if c = 4 then true
  else if c = 5 then (bitsOf mask 6).all (fun s => !m.stationArmed s)
  else if c = 6 then (bitsOf mask 26).all (fun h => m.hvState h == 0 && !m.bitA (hvBase h) 26)
  else if c = 7 then (bitsOf mask 8).all (fun n => m.motorState n == 0 && !m.armedMotors.contains n)
  else false

/-- The gap of a calibration in µs (R542); unbounded is 0xFFFF_FFFF. -/
def Mach.runGap (m : Mach) (id : Nat) : Nat :=
  let c := runCal id
  if c = 2 || c = 3 then
    let rate := ((tabFind m.jobs m.armed).map Job.maxRate).getD 0
    if rate = 0 then 0xFFFFFFFF else satAt 0xFFFFFFFF (ceilDiv (1024 * setAdvance (m.stnSet (runStation id)) * 1000000) rate)
  else if c = 5 || c = 8 then 20000
  else if c = 4 then 0
  else 0xFFFFFFFF

/-- The stations of the armed job. -/
def Mach.jobStations (m : Mach) : List Nat := bitsOf (((tabFind m.jobs m.armed).map Job.stations).getD 0) 6

/-- The stations whose path a calibration uses (R193). -/
def Mach.runStations (m : Mach) (id mask : Nat) : List Nat :=
  let c := runCal id
  if c = 2 || c = 3 then [runStation id]
  else if c = 6 then ((bitsOf mask 26).flatMap m.hvStations).eraseDups
  else if c = 7 then (if (bitsOf mask 8).all (fun n => decide (n < 6)) then bitsOf mask 6 else m.jobStations)
  else if c = 1 then m.jobStations
  else bitsOf mask 6

/-- CAL_RUN's plan. -/
def planCalRun (msg : Msg) (m : Mach) : Plan :=
  let id := numAt msg.payload 0 4
  let mask := numAt msg.payload 4 4
  { absent := runAbsent m.part id mask
    param := runParam id mask
    state := decide (runCal id = 1) && !m.mgt m.token 27
    need := some { gap := m.runGap id, stations := m.runStations id mask, free := m.runPath id mask }
    later := some (.calRun id mask)
    act := fun t =>
      let t1 := if (calRunning t.awaits).any (fun r => r.1 == msg.tag) then t.calBegin id mask else t
      t1.calShow }

/-- The definition of CAL_RUN's row. -/
def cmdCalRun : CmdDef := { opcode := 0x0901, lenMin := 8, lenMax := 8, states := inCAPD }

/-- CAL_RUN: R214, R542 to R545. -/
def execCalRun (msg : Msg) (s : State) : Host.Outcome State Fault Refusal :=
  onM (fun m => m.runCmd cmdCalRun msg (planCalRun msg)) s

/-- The results that belong to a calibration. -/
def runItems (p : Part) (id mask : Nat) (items : List CalResult) : List CalResult :=
  let c := runCal id
  items.filter (fun r => calItemOk p (resKey r c) &&
    (if c = 2 || c = 3 then r.inst == runStation id && (runBeams id mask).contains r.index else hasBit mask r.inst))

/-- CAL_RUN_DONE: R549 to R551. -/
def execCalRunDone (id : Nat) (items : List CalResult) (s : State) : Host.Outcome State Fault Refusal :=
  onM (fun m =>
    match (calRunning m.awaits).find? (fun r => r.2.1 == id) with
    | none => m
    | some (tag, _, mask) =>
      let c := runCal id
      let its := runItems m.part id mask items
      let inst := runInstance id mask
      if its.all (itemAgrees c) then
        (m.calAcceptAll c inst its).calAnswer tag id mask stOk 0 0 (calQuality c m.now its)
      else (m.calReject c inst its).calAnswer tag id mask stCalDisagree id 1 []) s

/-- CAL_SPARE_STEP: R546. The spare stands in for the next channel of its group, or hands its channel back. A group whose spare
stands in permanently makes no step, and none is made while the group is not being calibrated. -/
def execCalSpareStep (d : SideId) (group : Nat) (s : State) : Host.Outcome State Fault Refusal :=
  onM (fun m =>
    let runs := (calRunning m.awaits).any (fun r => runCal r.2.1 == 1 && hasBit r.2.2 group)
    let boot := m.mgt d 25 && !m.mgt d 27
    if decide (16 ≤ group) || !m.fitted d || !(runs || boot) || m.get d (calSpare group) 30 1 = 1 then m
    else
      let k := tabGet 0 m.cal.steps (stepKey d group)
      if m.get d (calSpare group) 31 1 = 1 then
        (m.spareStands d group k false).modCal (fun c => { c with steps := tabPut c.steps (stepKey d group) (k + 1) })
      else if k < 16 then m.spareStands d group k true
      else m) s

/-- ADC_SELF_CAL_DONE: R81 step 10, R546. A group with an item that disagrees keeps its loaded entries. -/
def execAdcSelfCalDone (d : SideId) (items : List CalResult) (s : State) : Host.Outcome State Fault Refusal :=
  onM (fun m =>
    if !m.mgt d 25 || m.mgt d 27 then m
    else
      let mine := items.filter (fun r => r.side == sideCode d && calItemOk m.part (resKey r 1))
      let m1 := (List.range 16).foldl (fun t g =>
        let its := mine.filter (fun r => r.inst == g)
        if its.isEmpty then t
        else if its.all (itemAgrees 1) then t.calAcceptAll 1 g its
        else t.calReject 1 g its) m
      (m1.sparesBack d (List.range 16)).setMgt d 27 true) s

/-! ### The user layer (R537 to R541) -/

/-- CAL_USER_READ's plan. -/
def planCalUserRead (msg : Msg) (m : Mach) : Plan :=
  let gens := [m.calGen m.token 0, m.calGen m.token 1].foldl max 0
  let bytes := calRecord m.part gens m.now m.cal.user
  let len := numAt msg.payload 8 4
  { refuse :=
      if len < bytes.length then some (stOutFull, bytes.length)
      else if (hostBuf msg 0).isNone then some (stHostFault, 0)
      else none
    reply := leBytes 4 bytes.length
    act := fun t => t.emit (.hostWrite msg.side (numAt msg.payload 0 8) bytes) }

/-- CAL_USER_READ: R537. -/
def execCalUserRead (msg : Msg) (s : State) : Host.Outcome State Fault Refusal :=
  onM (fun m => m.runCmd { opcode := 0x0902, lenMin := 16, lenMax := 16, states := inCAPDF } msg (planCalUserRead msg)) s

/-- CAL_USER_WRITE's plan. On the W7-S, an entry of a calibration that it lacks is for an absent unit (R542). -/
def planCalUserWrite (msg : Msg) (m : Mach) : Plan :=
  match hostBuf msg 0 with
  | none => { refuse := some (stHostFault, 0) }
  | some bs =>
    let lacks := fun (e : Nat × Word) => [3, 4, 5, 0x10, 0x11].contains (keyCal e.1)
    { absent := !hasLaser m.part && numAt bs 12 4 ≤ 4096 && recCrcOk bs && (recEntries bs).any lacks
      param := badRecord m.part bs
      act := fun t => (recEntries bs).foldl (fun u e => u.calEntry false e.1 e.2) t }

/-- CAL_USER_WRITE: R537. -/
def execCalUserWrite (msg : Msg) (s : State) : Host.Outcome State Fault Refusal :=
  onM (fun m => m.runCmd { opcode := 0x0903, lenMin := 16, lenMax := 16, states := inCAPD } msg (planCalUserWrite msg)) s

/-- Save a record over a side's older copy (R540). -/
def Mach.saveCopy (m : Mach) (d : SideId) (bytes : List Byte) (ok : Bool) : Mach :=
  let copy := if (m.calCopy d 1).isNone then 1
    else if (m.calCopy d 0).isNone then 0
    else if m.calGen d 0 < m.calGen d 1 then 0 else 1
  (m.modCal (fun c => { c with
    copies := tabPut c.copies (copyKey d copy) (if ok then bytes else []) })).showCopies d

/-- CAL_SAVE's plan. -/
def planCalSave (readBackOk : Bool) (m : Mach) : Plan :=
  let gens := [SideId.a, .b].flatMap (fun d => if m.inService d then [m.calGen d 0, m.calGen d 1] else [])
  let gen := gens.foldl max 0 + 1
  let bytes := calRecord m.part gen m.now m.cal.user
  { status := if readBackOk then stOk else stTimeout
    reply := if readBackOk then leBytes 4 gen else []
    act := fun t =>
      let t1 := t.onSides Mach.inService (fun d u => u.saveCopy d bytes readBackOk)
      if readBackOk then
        let t2 := (t1.modCal (fun c => { c with saved := c.user })).calDirty
        t2.onSides Mach.inService (fun d u => u.put d calStat 31 1 0)
      else (t1.raise 108).logM 0x0F noInst 0x0307 3 [gen] }

/-- CAL_SAVE: R540. -/
def execCalSave (msg : Msg) (readBackOk : Bool) (s : State) : Host.Outcome State Fault Refusal :=
  onM (fun m => m.runCmd { opcode := 0x0904, lenMin := 0, lenMax := 0, states := inCAPD } msg (planCalSave readBackOk)) s

/-- CAL_RUNNING as it reads: how far a run has come is not told while one runs. -/
def Mach.calRunningWord (m : Mach) (d : SideId) : Word :=
  let w := m.rd d 0xF80010
  if w = 0 then w else putField w 0 16 (Config.freeNat m.fresh 600)

/-- CAL_STATUS: R554. -/
def execCalStatus (msg : Msg) (s : State) : Host.Outcome State Fault Refusal :=
  onM (fun m => m.runCmd { opcode := 0x0905, lenMin := 0, lenMax := 0, states := inCAPDF } msg (fun t =>
    { reply := [t.rdA calStat, t.rdA 0xF80008, t.rdA 0xF8000C, t.calRunningWord t.token].flatMap wordBytes })) s

/-! ### SELF_TEST (R214) -/

/-- SELF_TEST's plan. The spec gives a station test 5.0 ms (the worked example of the command set) and lists no test identifiers: any is
taken. The result word and what names a failing item are not given. -/
def planSelfTest (msg : Msg) (failing : Option Nat) (m : Mach) : Plan :=
  let mask := numAt msg.payload 4 4
  { absent := (bitsOf mask 6).any (fun s => decide (stationsOf m.part ≤ s))
    param := firstBad [(mask == 0 || decide (64 ≤ mask), 4)]
    need := some { gap := 5000, stations := bitsOf mask 6, free := (bitsOf mask 6).all (fun s => !m.stationArmed s) }
    reply := leBytes 4 (Config.selfTestResult failing.isNone) ++ leBytes 4 (failing.getD (Config.freeNat m.fresh 601))
    act := fun t =>
      let ok := t.ilk.laserA && t.ilk.laserB && !t.ilk.laserLock
      { t with ilk := { t.ilk with laserEnabled := t.ilk.laserEnabled || ok } } }

/-- The definition of SELF_TEST's row. -/
def cmdSelfTest : CmdDef := { opcode := 0x0906, lenMin := 8, lenMax := 8, states := inCAPD }

/-- SELF_TEST: R214. -/
def execSelfTest (msg : Msg) (failing : Option Nat) (s : State) : Host.Outcome State Fault Refusal :=
  onM (fun m => m.runCmd cmdSelfTest msg (planSelfTest msg failing)) s

end Sys2Proof.Machine
end

