-- ==== Sys2Proof/Machine/ReedSolomon.lean ====
section
/-!
DEFINITION. The code of the image memory (R266, R267, R671): RS(72,64) over GF(2^8) with polynomial 0x11D, decoded to
bounded distance 4 in normal mode and by erasures in erasure mode. The code is linear, so the decoder works on the error
pattern alone: what it delivers differs from what was written by the pattern plus its own correction.
-/

namespace Sys2Proof.Machine

/-- Multiplication by x in the field. -/
def gfX (a : Byte) : Byte := if a.getLsbD 7 then (a <<< 1) ^^^ 0x1D else a <<< 1

/-- Shift-and-add multiplication over the low `n` bits of the second factor. -/
def gfMulAux : Nat → Byte → Byte → Byte
  | 0, _, _ => 0
  | n + 1, a, b => (if b.getLsbD 0 then a else 0) ^^^ gfMulAux n (gfX a) (b >>> 1)

/-- Multiplication in the field. -/
def gfMul (a b : Byte) : Byte := gfMulAux 8 a b

/-- A power in the field. -/
def gfPow (a : Byte) : Nat → Byte
  | 0 => 1
  | n + 1 => gfMul a (gfPow a n)

/-- The inverse of a non-zero element: its 254th power, by squarings. -/
def gfInv (a : Byte) : Byte :=
  let a2 := gfMul a a
  let a4 := gfMul a2 a2
  let a8 := gfMul a4 a4
  let a16 := gfMul a8 a8
  let a32 := gfMul a16 a16
  let a64 := gfMul a32 a32
  let a128 := gfMul a64 a64
  gfMul a2 (gfMul a4 (gfMul a8 (gfMul a16 (gfMul a32 (gfMul a64 a128)))))

/-- A polynomial at a point, lowest coefficient first. -/
def gfEval (p : List Byte) (x : Byte) : Byte := p.foldr (fun c acc => c ^^^ gfMul acc x) 0

/-- The sum of two polynomials. -/
def gfAdd : List Byte → List Byte → List Byte
  | [], q => q
  | p, [] => p
  | a :: p, b :: q => (a ^^^ b) :: gfAdd p q

/-- A polynomial times a constant. -/
def gfScale (c : Byte) (p : List Byte) : List Byte := p.map (gfMul c)

/-- The product of two polynomials. -/
def gfPolyMul : List Byte → List Byte → List Byte
  | [], _ => []
  | a :: p, q => gfAdd (gfScale a q) (0 :: gfPolyMul p q)

/-- The locator of symbol k: α^(71 − k) (R266). -/
def rsLocator (k : Nat) : Byte := gfPow 2 (71 - k)

/-- The eight syndromes of an error pattern: its value at α^0 to α^7. -/
def rsSyndromes (errs : List (Nat × Byte)) : List Byte :=
  (List.range 8).map (fun j => errs.foldl (fun s p => s ^^^ gfMul p.2 (gfPow (rsLocator p.1) j)) 0)

/-- The working values of the search for the error locator (Berlekamp and Massey). -/
structure BmState where
  loc  : List Byte
  prev : List Byte
  deg  : Nat
  gap  : Nat
  last : Byte
  deriving DecidableEq, Repr

/-- One step of the search, over the syndromes up to number `n`. -/
def bmStep (syn : List Byte) (st : BmState) (n : Nat) : BmState :=
  let d := (List.range (st.deg + 1)).foldl
    (fun s i => s ^^^ gfMul (st.loc.getD i 0) (if i ≤ n then syn.getD (n - i) 0 else 0)) 0
  if d = 0 then { st with gap := st.gap + 1 }
  else
    let adj := gfScale (gfMul d (gfInv st.last)) (List.replicate st.gap 0 ++ st.prev)
    let loc := gfAdd st.loc adj
    if 2 * st.deg ≤ n then { loc := loc, prev := st.loc, deg := n + 1 - st.deg, gap := 1, last := d }
    else { st with loc := loc, gap := st.gap + 1 }

/-- The error locator of a list of syndromes. -/
def bmLocator (syn : List Byte) : BmState :=
  (List.range 8).foldl (bmStep syn) { loc := [1], prev := [1], deg := 0, gap := 1, last := 1 }

/-- The formal derivative in characteristic 2. -/
def gfDeriv (p : List Byte) : List Byte := p.tail.mapIdx (fun i c => if i % 2 = 0 then c else 0)

/-- The error values at given positions, from a locator and the syndromes (Forney, first root α^0). -/
def forney (syn loc : List Byte) (ks : List Nat) : List (Nat × Byte) :=
  let omega := (gfPolyMul syn loc).take 8
  let der := gfDeriv loc
  ks.map (fun k =>
    let x := rsLocator k
    let xi := gfInv x
    (k, gfMul x (gfMul (gfEval omega xi) (gfInv (gfEval der xi)))))

/-- The decoder in normal mode (R671): the correction it applies, or none where the codeword is uncorrectable. -/
def rsDecode (errs : List (Nat × Byte)) : Option (List (Nat × Byte)) :=
  let syn := rsSyndromes errs
  if syn.all (fun s => s == 0) then some []
  else
    let st := bmLocator syn
    let ks := (List.range 72).filter (fun k => gfEval st.loc (gfInv (rsLocator k)) == 0)
    if st.deg ≤ 4 ∧ ks.length = st.deg then some (forney syn st.loc ks) else none

/-- The symbols of a device (R266): bytes k with k mod 8 = d, or the check symbols for device 8. -/
def deviceSymbols (d : Nat) : List Nat :=
  if d = 8 then (List.range 8).map (· + 64) else (List.range 8).map (fun i => 8 * i + d)

/-- The device that holds a symbol. -/
def symbolDevice (k : Nat) : Nat := if 64 ≤ k then 8 else k % 8

/-- The decoder in erasure mode (R671): the retired device's symbols are solved for without a check. -/
def rsErase (dev : Nat) (errs : List (Nat × Byte)) : List (Nat × Byte) :=
  let ks := deviceSymbols dev
  let others := errs.filter (fun p => !ks.contains p.1)
  let syn := rsSyndromes others
  let loc := ks.foldl (fun p k => gfPolyMul p [1, rsLocator k]) [1]
  let solved := forney syn loc ks
  solved.map (fun p => (p.1, p.2 ^^^ (errs.foldl (fun s q => if q.1 = p.1 then s ^^^ q.2 else s) 0)))

/-- Two symbol patterns added. -/
def symAdd (a b : List (Nat × Byte)) : List (Nat × Byte) :=
  b.foldl (fun t p => sparsePut (fun _ => 0) t p.1 (sparseGet (fun _ => (0 : Byte)) t p.1 ^^^ p.2)) a

/-- Applying a symbol pattern to the 64 user bytes of a codeword. -/
def applySymbols (bytes : List Byte) (errs : List (Nat × Byte)) : List Byte :=
  bytes.mapIdx (fun i b => b ^^^ sparseGet (fun _ => (0 : Byte)) errs i)

end Sys2Proof.Machine
end

