-- ==== Sys2Proof/Machine/Rails.lean ====
section
/-!
DEFINITION. The head rails (R90 to R106, R62): power-up and power-down step by step, rail faults, station inhibits (R607), the
reset outputs (R115), and the sequencing bus that joins modules into a group (R116 to R125).
-/

namespace Sys2Proof.Machine

/-! ### The SEQ block -/

/-- SEQ_STAT. -/
def seqStat : Nat := 0x40004

/-- SEQ STATE (R94). -/
def Mach.seqState (m : Mach) : Nat := m.get .a seqStat 28 4

/-- CUR_STEP. -/
def Mach.curStep (m : Mach) : Nat := m.get .a seqStat 24 4

/-- STEP_COUNT. -/
def Mach.stepCount (m : Mach) : Nat := m.get .a 0x40000 24 4

/-- Set STATE. -/
def Mach.setSeq (m : Mach) (v : Nat) : Mach := m.put .a seqStat 28 4 v

/-- Set a bit of SEQ_STAT. -/
def Mach.seqBit (m : Mach) (i : Nat) (b : Bool) : Mach := m.put .a seqStat i 1 (b2n b)

/-- SEQ_RAIL_MEAS of a rail. -/
def railMeas (r : Nat) : Nat := 0x40300 + 4 * r

/-- Whether a rail is switched on. -/
def Mach.railOn (m : Mach) (r : Nat) : Bool := bitOf (m.rd .a (railMeas r)) 1

/-- SEQ_STEP_TIME of a step. -/
def Mach.stepTime (m : Mach) (k : Nat) : Word := m.rd .a (0x40140 + 4 * k)

/-- RAIL_MASK of a step. -/
def Mach.stepMask (m : Mach) (k : Nat) : Nat := m.get .a (0x40100 + 4 * k) 0 24

/-- The rails that step `k` switches (R95): those it names that no earlier step names. -/
def Mach.stepRails (m : Mach) (k : Nat) : List Nat :=
  (List.range (railsOf m.part)).filter (fun r =>
    hasBit (m.stepMask k) r && !(List.range k).any (fun j => hasBit (m.stepMask j) r))

/-- Whether a station's rails take no part in a power-up (R102, R103, R104): locked, its head absent, or switched off since the
power-up began. -/
def Mach.railsBarred (m : Mach) (s : Nat) : Bool :=
  bitOf (m.rd .a seqStat) s || hasBit m.power.heads s || hasBit m.seq.stnOff s

/-- The rails of step `k` that a power-up switches on. -/
def Mach.upRails (m : Mach) (k : Nat) : List Nat := (m.stepRails k).filter (fun r => !m.railsBarred (r / 4))

/-- A measurement word: its voltage and current are what the converters read, which the spec does not compute. -/
def Mach.measWord (m : Mach) (r : Nat) (fault warn on discharged : Bool) : Word :=
  let v := putField 0 16 16 (Config.freeNat m.fresh (2 * r))
  let c := putField v 4 12 (Config.freeNat m.fresh (2 * r + 1))
  putBit (putBit (putBit (putBit c 3 fault) 2 warn) 1 on) 0 discharged

/-- Whether a voltage lies outside a window of a rail, in percent of its set-point. -/
def outside (sp mv pct : Nat) : Bool := decide (pct * sp < 100 * (max sp mv - min sp mv))

/-- WARN_PCT in force (R97): 0 acts as 1. -/
def warnPct (cfg : Word) : Nat := max 1 (fieldOf cfg 7 4)

/-- What SEQ_RAIL_MEAS of a rail reads (R98): it is refreshed every 1 ms, so VOLT and CURR are new free values whenever they are read, and
the windows of a rail that is ON are judged on that VOLT. A rail not fitted reads 0 (R8, R91). -/
def Mach.measNow (m : Mach) (r : Nat) : Word :=
  let w := m.rd .a (railMeas r)
  let cfg := m.rd .a (0x40200 + 4 * r)
  let sp := fieldOf cfg 16 16
  let mv := Config.freeNat m.fresh (2 * r) % 65536
  let v := putField w 4 12 (Config.freeNat m.fresh (2 * r + 1))
  if railsOf m.part ≤ r then 0
  else if m.railOn r then
    putField (putBit (putBit (putBit v 3 (outside sp mv (max (warnPct cfg) (fieldOf cfg 11 5)))) 2 (outside sp mv (warnPct cfg))) 0
      (decide (10 * mv < sp))) 16 16 mv
  else putField v 16 16 (if bitOf w 0 then mv % max 1 (sp / 10) else mv)

/-- Refresh the measurement of a rail (R98). -/
def Mach.setMeas (m : Mach) (r : Nat) (fault warn on discharged : Bool) : Mach :=
  m.wr .a (railMeas r) (m.measWord r fault warn on discharged)

/-- Switch a rail off and connect its pull-down. -/
def Mach.railDown (m : Mach) (r : Nat) : Mach :=
  if m.railOn r then m.setMeas r false false false false else m

/-- Every rail that is off reads DISCHARGED. -/
def Mach.settle (m : Mach) (rs : List Nat) : Mach :=
  rs.foldl (fun t r => if t.railOn r || bitOf (t.rd .a (railMeas r)) 0 then t else t.setMeas r false false false true) m

/-- Whether every one of the rails reads DISCHARGED. -/
def Mach.discharged (m : Mach) (rs : List Nat) : Bool := rs.all (fun r => bitOf (m.rd .a (railMeas r)) 0)

/-! ### Reset outputs (R115) -/

/-- Assert a reset output, ending any stretch. -/
def RstOut.assert (_ : RstOut) : RstOut := ⟨true, false⟩

/-- Start the stretch of a reset output that is to be released. -/
def RstOut.begin_ (r : RstOut) : RstOut := { r with stretch := true }

/-- Release a reset output. -/
def RstOut.release (_ : RstOut) : RstOut := ⟨false, false⟩

/-- Change RST_HOST_N. -/
def Mach.rstHost (m : Mach) (f : RstOut → RstOut) : Mach := { m with power := { m.power with rstHost := f m.power.rstHost } }

/-- Change RST_HEAD_N. -/
def Mach.rstHead (m : Mach) (f : RstOut → RstOut) : Mach := { m with power := { m.power with rstHead := f m.power.rstHead } }

/-- Change the reset outputs that step `k` releases (REL_HOST, REL_HEAD). -/
def Mach.stepOutputs (m : Mach) (k : Nat) (f : RstOut → RstOut) : Mach :=
  let m1 := if bitOf (m.stepTime k) 31 then m.rstHost f else m
  if bitOf (m.stepTime k) 30 then m1.rstHead f else m1

/-- Whether some step releases RST_HOST_N. -/
def Mach.hostByStep (m : Mach) : Bool := (List.range m.stepCount).any (fun k => bitOf (m.stepTime k) 31)

/-- Assert both reset outputs (collapse, manual reset, long press). -/
def Mach.assertOutputs (m : Mach) : Mach := (m.rstHost RstOut.assert).rstHead RstOut.assert

/-! ### A station without its rails (R62, R104) -/

/-- The beam channels of a station are disabled: the rest of a committed page on it is blanked with cause RAIL_OFF (R35,
R405). -/
def Mach.stationDark (m : Mach) (s : Nat) : Mach :=
  let m1 := m.modStn s (fun t => { t with dark := true })
  m1.pages.foldl (fun t e =>
    match tabFind e.2.prog s with
    | none => t
    | some q =>
      if e.2.committed && q.started && !q.ended then
        ((t.faultRun s 0x06 0x0007 2 [e.2.pageNo, q.next]).blank s e.1 q.next (e.2.length - 1) 0).passLines s e.1 e.2.length
      else t) m1

/-! ### Sequences -/

/-- Whether the sequence in progress steps with a group whose master or slave this module is. -/
def Mach.modSeq (m : Mach) (f : Seq → Seq) : Mach := { m with seq := f m.seq }

/-- Change the bus state. -/
def Mach.modBus (m : Mach) (f : Bus → Bus) : Mach := { m with bus := f m.bus }

/-- STATE becomes ON: stations with rails may emit again once enabled, and SEQ_UP is answered (R203). -/
def Mach.seqReachOn (m : Mach) : Mach :=
  let m1 := m.setSeq 2
  let m2 := (List.range 6).foldl (fun t s =>
    if t.railsBarred s then t else t.modStn s (fun u => { u with dark := false })) m1
  let m3 := ((List.range 6).filter (fun s => !m2.railsBarred s)).foldl Mach.askStation m2
  m3.answerAwaits (fun k => k == .seqUp) stOk 0 (fun _ => [])

/-- Step `k` of a power-up begins: its rails go on, and the stations it skips are named (R103). -/
def Mach.beginStep (m : Mach) (k : Nat) : Mach :=
  let m1 := (m.put .a seqStat 24 4 k).modSeq (fun q => { q with inWindow := false })
  let m2 := (m1.stepRails k).foldl (fun t r =>
    let s := r / 4
    if hasBit t.power.heads s && !bitOf (t.rd .a seqStat) (12 + s) then
      (t.seqBit (12 + s) true).logM 0 s 0x0209 1 [k] else t) m1
  let m3 := (m2.upRails k).foldl (fun t r =>
    let u := t.setMeas r true true true false
    { u with shut := { u.shut with fitTest := setBitN u.shut.fitTest (r / 4) } }) m2
  if (m3.upRails k).isEmpty then (m3.modSeq (fun q => { q with inWindow := true })).stepOutputs k RstOut.begin_ else m3

/-- Whether a group step is done for this module: its own step has ended, or it has no such step (R120). -/
def Mach.ownStepUp (m : Mach) (k : Nat) : Mach :=
  if k < m.stepCount then (m.modBus (fun b => { b with stepDone := false })).beginStep k
  else m.modBus (fun b => { b with stepDone := true })

/-- The master of a group (R116). -/
def Mach.isMaster (m : Mach) : Bool := m.get .a 0x40020 0 4 = 0 && m.get .a 0x40020 16 16 != 0

/-- A slave that hears its master (R116). -/
def Mach.isSlave (m : Mach) : Bool := m.get .a 0x40020 0 4 != 0 && m.bus.heard

/-- The group step count (R120): the largest STEP_COUNT reported in the group. -/
def Mach.groupCount (m : Mach) : Nat :=
  (tabVals m.bus.slaveSteps).foldl max m.stepCount

/-- The slaves whose report a group step waits for (R120, R122): every slave of SLAVE_MASK in RISING, and in power-down, where the group
goes on without a missing one, those that are not missing. -/
def Mach.slavesAsked (m : Mach) : List Nat :=
  (bitsOf (m.get .a 0x40020 16 16) 16).filter (fun i => m.seqState = 1 || !hasBit m.bus.missing i)

/-- Power-up begins (R105): no station is skipped or switched off yet. What HEAD_PRES_N of a station seen absent reads by now is
not told, so it is a free value. A group's master counts unanswered polls from here on, so that a slave still missing goes missing in
RISING too (R122). -/
def Mach.startUp (m : Mach) (grouped : Bool) : Mach :=
  let heads := (List.range 6).foldl (fun h s =>
    if hasBit m.power.heads s && Config.freeBool m.fresh (100 + s) then setBitN h s else h) 0
  let m1 := { m with power := { m.power with heads := heads } }
  let m2 := ((m1.setSeq 1).put .a seqStat 12 6 0).modSeq (fun q => { q with stnOff := 0, stnDown := [], upFailed := none, late := [] })
  let m3 := m2.modBus (fun b => { b with
    grouped := grouped, groupStep := 0, slaveDone := 0, railFault := false, unanswered := if grouped then [] else b.unanswered })
  if grouped then (if m3.groupCount = 0 then m3.seqReachOn else m3.ownStepUp 0)
  else if m3.stepCount = 0 then m3.seqReachOn
  else m3.beginStep 0

/-- Power-down has ended: STATE OFF, SEQ_DOWN and a reversed SEQ_UP are answered (R203). What follows it is for the module's
phase and PENDING_UP to decide. -/
def Mach.seqReachOff (m : Mach) : Mach :=
  let m1 := (m.setSeq 0).modSeq (fun q => { q with stnDown := [], stnOff := 0 })
  let m2 := m1.answerAwaits (fun k => k == .seqDown) stOk 0 (fun _ => [])
  if bitOf (m2.rd .a seqStat) 23 then m2
  else match m2.seq.upFailed with
  | some r => m2.answerAwaits (fun k => k == .seqUp) stRailFault r (fun _ => [])
  | none => m2.answerAwaits (fun k => k == .seqUp) stCancelled 2 (fun _ => [])

/-- Step `k` of a power-down begins (R101): its outputs are asserted and its rails go off. -/
def Mach.dropStep (m : Mach) (k : Nat) : Mach :=
  let m1 := (m.put .a seqStat 24 4 k).stepOutputs k RstOut.assert
  (m1.stepRails k).foldl (fun t r => t.railDown r) m1

/-- Power-down steps from `k` to 0 that need no wait run at once; the first that has rails to discharge waits. -/
def Mach.runDown (m : Mach) : Nat → Mach
  | 0 => m.seqReachOff
  | k + 1 =>
    let m1 := m.dropStep k
    if m1.discharged (m1.stepRails k) then m1.runDown k else m1

/-- How many of its own steps a module in FALLING has still to drop: the step at which it stands counts while a rail of it is on, or
where it switches none. -/
def Mach.toDrop (m : Mach) : Nat :=
  let rs := m.stepRails m.curStep
  if !rs.isEmpty && rs.all (fun r => !m.railOn r) then m.curStep else min (m.curStep + 1) m.stepCount

/-- A group's power-down to step `g` for this module (R101, R120): its own steps below `top` down to `g` are dropped in order, and the first
that has rails to discharge waits. It is done at once when it has none of them. -/
def Mach.ownStepDown (m : Mach) (g : Nat) : Nat → Mach
  | 0 => m.modBus (fun b => { b with stepDone := true })
  | k + 1 =>
    if k < g then m.modBus (fun b => { b with stepDone := true })
    else
      let m1 := (m.modBus (fun b => { b with stepDone := false })).dropStep k
      if m1.discharged (m1.stepRails k) then m1.ownStepDown g k else m1

/-- The master's group goes on when its own step has ended and every slave has reported (R120). -/
def Mach.groupAdvance (m : Mach) : Nat → Mach
  | 0 => m
  | fuel + 1 =>
    if m.isMaster && m.bus.grouped && m.bus.stepDone && m.slavesAsked.all (fun i => hasBit m.bus.slaveDone i) then
      let g := m.bus.groupStep
      if m.seqState = 1 then
        if g + 1 < m.groupCount then
          ((m.modBus (fun b => { b with groupStep := g + 1, slaveDone := 0 })).ownStepUp (g + 1)).groupAdvance fuel
        else (m.modBus (fun b => { b with grouped := false })).seqReachOn
      else if m.seqState = 3 then
        if 0 < g then
          ((m.modBus (fun b => { b with groupStep := g - 1, slaveDone := 0 })).ownStepDown (g - 1) m.toDrop).groupAdvance fuel
        else (m.modBus (fun b => { b with grouped := false })).seqReachOff
      else m
    else m

/-- Power-down begins (R105): from the step in progress in RISING, from the last step in ON. A master takes its group with
it (R120). -/
def Mach.startDown (m : Mach) (grouped : Bool) : Mach :=
  let from_ := if m.seqState = 1 then m.curStep + 1 else m.stepCount
  let m1 := ((m.setSeq 3).seqBit 23 false).modSeq (fun q => { q with stnDown := [] })
  if grouped then
    let g := if m.seqState = 1 then m.bus.groupStep else m.groupCount - 1
    let m2 := m1.modBus (fun b => { b with grouped := true, groupStep := g, slaveDone := 0 })
    (m2.ownStepDown g from_).groupAdvance 40
  else (m1.modBus (fun b => { b with grouped := false })).runDown (if m.stepCount = 0 then 0 else from_)

/-- An on request that acts here (R105, R125). PENDING_UP is held until power-down ends. -/
def Mach.upRequest (m : Mach) : Mach :=
  let st := m.seqState
  if m.isMaster && bitOf (m.rd .a 0x40024) 14 then m
  else if st = 0 then (m.startUp m.isMaster).groupAdvance 40
  else if st = 3 then m.seqBit 23 true
  else m

/-- An off request that acts here (R105). -/
def Mach.downRequest (m : Mach) (grouped : Bool) : Mach :=
  let st := m.seqState
  if st = 1 || st = 2 then m.startDown grouped
  else if st = 3 then m.seqBit 23 false
  else m

/-- A local on request: a slave that hears its master passes it on (R121). -/
def Mach.askUp (m : Mach) : Mach := if m.isSlave then m.modBus (fun b => { b with reqUp := true }) else m.upRequest

/-- A local off request: a slave that hears its master passes it on (R121). -/
def Mach.askDown (m : Mach) : Mach :=
  if m.isSlave then m.modBus (fun b => { b with reqDown := true }) else m.downRequest m.isMaster

/-- An off request that acts only on this module (R121: long press, manual reset, input loss). -/
def Mach.localDown (m : Mach) : Mach := m.downRequest false

/-- Go on after a power-up step has ended. -/
def Mach.afterStep (m : Mach) : Mach :=
  let k := m.curStep
  if m.bus.grouped && (m.bus.groupStep ≤ k || m.stepCount ≤ k + 1) then
    (m.modBus (fun b => { b with stepDone := true })).groupAdvance 40
  else if k + 1 < m.stepCount then m.beginStep (k + 1)
  else m.seqReachOn

/-- A slave whose group steps down to step 0 is OFF once its own steps are behind it. -/
def Mach.slaveOff (m : Mach) : Mach :=
  if m.bus.groupStep = 0 && m.bus.stepDone then (m.modBus (fun b => { b with grouped := false })).seqReachOff else m

/-- Go on after a power-down step's rails are discharged or timed out. PENDING_UP starts the power-up it holds (R105). -/
def Mach.afterDrop (m : Mach) : Mach :=
  let k := m.curStep
  let m1 := if m.bus.grouped then
      let t := m.ownStepDown m.bus.groupStep k
      if m.isMaster then t.groupAdvance 40 else t.slaveOff
    else m.runDown k
  m1

/-- PENDING_UP is served once STATE is OFF and the module still runs. -/
def Mach.servePending (m : Mach) : Mach :=
  if m.seqState = 0 && bitOf (m.rd .a seqStat) 23 && m.power.phase == .running then (m.seqBit 23 false).upRequest
  else m

/-- A station's rails are switched off by themselves, from step `k` down (R104 by the rules of R101). -/
def Mach.stationDrop (m : Mach) (s : Nat) : Nat → Mach
  | 0 => m.modSeq (fun q => { q with stnDown := tabErase q.stnDown s })
  | k + 1 =>
    let mine := (m.stepRails k).filter (fun r => r / 4 == s)
    let m1 := mine.foldl (fun t r => t.railDown r) m
    if m1.discharged mine then m1.stationDrop s k else m1.modSeq (fun q => { q with stnDown := tabPut q.stnDown s k })

/-- A rail fault's action on its station (R104): rails off in order, beams off, and the station takes no further part in this
power-up. -/
def Mach.stationOff (m : Mach) (s : Nat) : Mach :=
  let m1 := m.modSeq (fun q => { q with stnOff := setBitN q.stnOff s })
  (m1.stationDrop s m.stepCount).stationDark s

/-- A rail fault counts in class RAIL_FAULT of its station and may inhibit it (R104, R605). -/
def Mach.railFaultClass (m : Mach) (s : Nat) : Mach := (m.countFault 0x04 0 s).1.refreshInhibit

/-- A rail fault during a group's RISING turns the group to FALLING; a slave reports it (R121). -/
def Mach.reverse (m : Mach) : Mach :=
  if m.isMaster then m.startDown true
  else (m.modBus (fun b => { b with railFault := true })).startDown false

/-! ### Rail commands -/

/-- GO_UP: R92, R105, R121. The bit is firmware-owned. -/
def execGoUp (d : SideId) (s : State) : Host.Outcome State Fault Refusal :=
  onM (fun m => if m.droneRules d then m.askUp else m) s

/-- GO_DOWN: R92, R105, R121. The bit is firmware-owned. -/
def execGoDown (d : SideId) (s : State) : Host.Outcome State Fault Refusal :=
  onM (fun m => if m.droneRules d then m.askDown else m) s

/-- RAIL_IN_WINDOW: R100 steps 2 and 3. -/
def execRailInWindow (s : State) : Host.Outcome State Fault Refusal :=
  onM (fun m =>
    if m.seqState = 1 && !m.seq.inWindow then
      let k := m.curStep
      let m1 := (m.upRails k).foldl (fun t r => t.setMeas r false false true false) m
      (m1.modSeq (fun q => { q with inWindow := true })).stepOutputs k RstOut.begin_
    else m) s

/-- STEP_END: R100 step 4. The outputs that the step releases are released by then. -/
def execStepEnd (s : State) : Host.Outcome State Fault Refusal :=
  onM (fun m =>
    if m.seqState = 1 && m.seq.inWindow && !(m.bus.grouped && m.bus.stepDone) then
      (m.stepOutputs m.curStep RstOut.release).afterStep
    else m) s

/-- The step of a rail (R95): the first one that names it. -/
def Mach.railStep (m : Mach) (rail : Nat) : Nat := ((List.range 16).find? (fun k => hasBit (m.stepMask k) rail)).getD 16

/-- A rail's rise has timed out (R100): the bit, the event, the log entry and one count of its station's class. -/
def Mach.riseFailed (m : Mach) (rail mv : Nat) : Mach :=
  (((m.seqBit 21 true).raise 8).logM 0 rail 0x0204 2 [(m.railStep rail : Int), (mv : Int)] 0x04).railFaultClass (rail / 4)

/-- RISE_TIMEOUT: R100. Rails of one step that miss the same end are told one after the other; the first of them reverses the
power-up. -/
def execRiseTimeout (rail mv : Nat) (s : State) : Host.Outcome State Fault Refusal :=
  onM (fun m =>
    if m.seqState = 1 && !m.seq.inWindow && (m.upRails m.curStep).contains rail then
      let late := (m.upRails m.curStep).filter (fun r => r != rail)
      let m1 := (m.riseFailed rail mv).modSeq (fun q => { q with upFailed := some rail, late := late })
      m1.reverse.servePending
    else if m.seq.late.contains rail && (m.seqState = 3 || m.seqState = 0) then
      (m.riseFailed rail mv).modSeq (fun q => { q with late := q.late.filter (fun r => r != rail) })
    else m) s

/-- Whether a rail is judged against its windows (R104): it is ON and its step has ended. -/
def Mach.railJudged (m : Mach) (rail : Nat) : Bool :=
  m.railOn rail && (m.seqState = 2 || m.seqState = 3 ||
    m.seqState = 1 && (decide (m.railStep rail < m.curStep) || m.railStep rail == m.curStep && m.bus.grouped && m.bus.stepDone))

/-- RAIL_FAULT: R104, R121. -/
def execRailFault (rail mv ma : Nat) (s : State) : Host.Outcome State Fault Refusal :=
  onM (fun m =>
    if m.railJudged rail then
      let m0 := (m.put .a (railMeas rail) 3 1 1).modBus (fun b => { b with railFault := b.railFault || m.seqState != 2 })
      let m1 := (m0.raise 8).logM 0 rail 0x0206 2 [mv, ma] 0x04
      let m2 := (m1.railFaultClass (rail / 4)).stationOff (rail / 4)
      if m.seqState = 1 && m.bus.grouped then m2.reverse.servePending else m2
    else m) s

/-- RAIL_WARN: R104. -/
def execRailWarn (rail mv ma : Nat) (s : State) : Host.Outcome State Fault Refusal :=
  onM (fun m =>
    if m.railJudged rail then ((m.put .a (railMeas rail) 2 1 1).raise 3).logM 0 rail 0x0207 1 [mv, ma] else m) s

/-- HEAD_ABSENT: R62. The four rails go off at once. -/
def execHeadAbsent (station : Nat) (s : State) : Host.Outcome State Fault Refusal :=
  onM (fun m =>
    if stationsOf m.part ≤ station then m
    else
      let m1 := { m with power := { m.power with heads := setBitN m.power.heads station } }
      let rs := [4 * station, 4 * station + 1, 4 * station + 2, 4 * station + 3]
      if rs.any (fun r => m.railOn r) then
        let m2 := rs.foldl (fun t r => t.railDown r) (m1.modSeq (fun q => { q with stnOff := setBitN q.stnOff station }))
        ((m2.raise 8).logM 0 station 0x0208 2 [m.seqState]).stationDark station
      else m1) s

/-- Pulse a reset output (R115). -/
def Mach.pulseHost (m : Mach) : Mach := m.rstHost (fun _ => ⟨true, true⟩)

/-- Pulse RST_HEAD_N (R115). -/
def Mach.pulseHead (m : Mach) : Mach := m.rstHead (fun _ => ⟨true, true⟩)

/-- PULSE_HOST: R115. -/
def execPulseHost (d : SideId) (s : State) : Host.Outcome State Fault Refusal :=
  onM (fun m => if m.droneRules d then m.pulseHost else m) s

/-- PULSE_HEAD: R115. -/
def execPulseHead (d : SideId) (s : State) : Host.Outcome State Fault Refusal :=
  onM (fun m => if m.droneRules d then m.pulseHead else m) s

/-- RESET_STRETCH_END: R115. -/
def execResetStretchEnd (out : ResetOut) (s : State) : Host.Outcome State Fault Refusal :=
  onM (fun m => match out with
    | .host => if m.power.rstHost.stretch then m.rstHost RstOut.release else m
    | .head => if m.power.rstHead.stretch then m.rstHead RstOut.release else m) s

/-! ### The sequencing bus -/

/-- A frame of the bus (R117). -/
def busFrame (dest src type seqNo : Nat) (payload : List Byte) : List Byte :=
  let body := [BitVec.ofNat 8 dest, BitVec.ofNat 8 src, BitVec.ofNat 8 type, BitVec.ofNat 8 seqNo,
               BitVec.ofNat 8 payload.length] ++ payload
  [0xA5] ++ body ++ beBytes 2 (crc16 body).toNat

/-- Whether a frame is discarded (R117): a bad SYNC, a LEN above 16, or a bad CRC. -/
def frameBad (f : List Byte) : Bool :=
  let len := numAt f 5 1
  numAt f 0 1 != 0xA5 || decide (16 < len) ||
    beBytes 2 (crc16 (bytesAt f 1 (5 + len))).toNat != bytesAt f (6 + len) 2

/-- The module takes part in a group (R116). -/
def Mach.onBus (m : Mach) : Bool := m.isMaster || m.get .a 0x40020 0 4 != 0

/-- Send a frame (R76: only the active side transmits). -/
def Mach.sendFrame (m : Mach) (dest type : Nat) (payload : List Byte) : Mach :=
  let f := busFrame dest (m.get .a 0x40020 0 4) type m.bus.seqNo payload
  (m.emit (.busFrame f)).modBus (fun b => { b with seqNo := (b.seqNo + 1) % 256 })

/-- The slave polled after `last`, in ascending order. -/
def Mach.nextPolled (m : Mach) (last : Nat) : Nat :=
  let mask := m.get .a 0x40020 16 16
  match (bitsOf mask 16).find? (fun i => decide (last < i)) with
  | some i => i
  | none => (bitsOf mask 16).headD 0

/-- Whether the module is booted, so that as a master it sends heartbeats (R119): the shutdowns keep it so until they hold the sides. -/
def Mach.booted (m : Mach) : Bool := [ModPhase.running, .inputLoss, .longPress, .thermalHold].contains m.power.phase

/-- Whether the module hears the sequencing bus: not without its always-on domain, nor in SOFT_OFF (R113). -/
def Mach.hearsBus (m : Mach) : Bool := !(m.power.phase == .unpowered || m.power.phase == .softOff)

/-- HEARTBEAT_SEND: R118, R119. -/
def execHeartbeatSend (s : State) : Host.Outcome State Fault Refusal :=
  onM (fun m =>
    if m.isMaster && m.booted then
      let p := m.nextPolled m.bus.polled
      let m1 := m.modBus (fun b => { b with polled := p })
      m1.sendFrame 0xFF 0x01 [BitVec.ofNat 8 p, BitVec.ofNat 8 m.seqState, BitVec.ofNat 8 m.bus.groupStep,
        BitVec.ofNat 8 m.groupCount]
    else m) s

/-- A slave's STATUS (R118). While the master's heartbeat shows a sequence in progress, byte 1 is the group step, so that a slave without
such a step can report it done (R120); otherwise it is CUR_STEP. DESIGN CHOICE: flag bit 5 (address conflict suspected) is never set,
since no rule says when a slave suspects one. -/
def Mach.sendStatus (m : Mach) : Mach :=
  let st := m.seqState
  let done := if m.bus.grouped then m.bus.stepDone else st = 0 || st = 2
  let flags := b2n done + 2 * b2n m.bus.railFault + 4 * b2n m.bus.reqUp + 8 * b2n m.bus.reqDown +
    16 * b2n (bitOf (m.rd .a seqStat) 20)
  let step := if m.bus.grouped then m.bus.groupStep else
    match m.bus.lastHb with
    | some (1, k) => k
    | some (3, k) => k
    | _ => m.curStep
  let m1 := m.sendFrame 0x00 0x02 ([BitVec.ofNat 8 st, BitVec.ofNat 8 step, BitVec.ofNat 8 flags,
    BitVec.ofNat 8 m.stepCount] ++ leBytes 4 Config.moduleSerial)
  m1.modBus (fun b => { b with reqUp := false, reqDown := false, returning := false })

/-- What a slave does when the heartbeat's state or step differs from the last one heard (R120, R122, R124). -/
def Mach.followMaster (m : Mach) (state step : Nat) : Mach :=
  let st := m.seqState
  if state = 1 then
    if st = 0 then
      let m1 := m.startUp false
      if m1.seqState = 2 then m1
      else m1.modBus (fun b => { b with grouped := true, groupStep := step, stepDone := false })
    else if st = 1 && m.bus.grouped && m.bus.groupStep < step then
      (m.modBus (fun b => { b with groupStep := step })).ownStepUp step
    else if st = 3 then m.seqBit 23 true
    else m
  else if state = 2 then
    if st = 1 && m.bus.grouped then
      let m1 := m.modBus (fun b => { b with grouped := false })
      if m.bus.stepDone then (if m.curStep + 1 < m.stepCount then m1.beginStep (m.curStep + 1) else m1.seqReachOn) else m1
    else if st = 0 then m.startUp false
    else m
  else if state = 3 then
    if st = 1 || st = 2 then
      let m0 := if m.bus.offAsked then m.abortJob else m
      let m1 := ((m0.setSeq 3).seqBit 23 false).modBus (fun b => { b with grouped := true, groupStep := step, offAsked := false })
      let top := if st = 1 then m.curStep + 1 else m.stepCount
      let m2 := if st = 1 then m1 else m1.put .a seqStat 24 4 (m.stepCount - 1)
      (m2.ownStepDown step top).slaveOff
    else if st = 3 && m.bus.grouped && step < m.bus.groupStep then
      let m1 := (m.modBus (fun b => { b with groupStep := step })).seqBit 23 false
      (if m.bus.stepDone then m1.ownStepDown step m.toDrop else m1).slaveOff
    else if st = 3 then m.seqBit 23 false
    else m
  else m

/-- A STATUS in answer to the first heartbeat heard: the slave stays one that has returned (R122). -/
def Mach.answerFirst (m : Mach) : Mach := m.sendStatus.modBus (fun b => { b with returning := m.bus.returning })

/-- HEARTBEAT: R119, R122 to R124. The first heartbeat heard sets the reference and causes no action (R124). A slave heard again while
the group is ON powers itself up when it answers its next poll (R122): DEDUCED, the reading in which both rules hold. -/
def execHeartbeat (polled state step _count : Nat) (s : State) : Host.Outcome State Fault Refusal :=
  onM (fun m =>
    if m.get .a 0x40020 0 4 = 0 || !m.hearsBus then m
    else
      let prev := m.bus.lastHb
      let m1 := (m.modBus (fun b => { b with heard := true, returning := b.returning || prev.isNone, lastHb := some (state, step) })).put
          .a 0x40024 15 1 1
      let m2 := match prev with
        | none => m1
        | some p => if p = (state, step) then m1 else (m1.followMaster state step).servePending
      if polled != m2.get .a 0x40020 0 4 || prev.isNone then (if polled = m2.get .a 0x40020 0 4 then m2.answerFirst else m2)
      else
        let m3 := if m2.bus.returning && state = 2 && m2.seqState = 0 then m2.startUp false else m2
        m3.sendStatus) s

/-- STATUS: R120, R121, R125. -/
def execStatus (src _state cur flags stepCount : Nat) (serial : Word) (s : State) : Host.Outcome State Fault Refusal :=
  onM (fun m =>
    if !(m.isMaster && m.hearsBus && hasBit (m.get .a 0x40020 16 16) src) then m
    else
      let m1 := (m.modBus (fun b => { b with
          unanswered := tabErase b.unanswered src, missing := clrBitN b.missing src
          slaveSteps := tabPut b.slaveSteps src (min stepCount 15), serials := tabPut b.serials src serial
          slaveDone := if hasBit flags 0 && cur == b.groupStep then setBitN b.slaveDone src else b.slaveDone })).put
            .a 0x40024 (16 + src) 1 1
      let m2 := match tabFind m.bus.serials src with
        | some old => if old = serial then m1
            else ((m1.put .a 0x40024 14 1 1).raise 2).logM 0 src 0x020B 3 [old.toNat, serial.toNat]
        | none => m1
      let m3 := if hasBit flags 1 && m2.seqState = 1 && m2.bus.grouped then m2.reverse else m2
      let m4 := if hasBit flags 2 then m3.upRequest else m3
      let m5 := if hasBit flags 3 then m4.downRequest true else m4
      (m5.groupAdvance 40).servePending) s

/-- POLL_UNANSWERED: R119, R122, R126. -/
def execPollUnanswered (s : State) : Host.Outcome State Fault Refusal :=
  onM (fun m =>
    let p := m.bus.polled
    if !(m.isMaster && m.hearsBus && hasBit (m.get .a 0x40020 16 16) p) then m
    else
      let n := tabGet 0 m.bus.unanswered p + 1
      let m1 := m.modBus (fun b => { b with unanswered := tabPut b.unanswered p n })
      if n = 3 then
        let m2 := m1.modBus (fun b => { b with missing := setBitN b.missing p })
        let m3 := ((m2.put .a 0x40024 (16 + p) 1 0).raise 2).logM 0 p 0x020A 2 [m.seqState]
        if m3.seqState = 1 && m3.bus.grouped && bitOf (m3.rd .a 0x40020) 7 then m3.reverse.servePending
        else (m3.groupAdvance 40).servePending
      else m1) s

/-- BAD_FRAME: R117, R127. -/
def execBadFrame (frame : List Byte) (s : State) : Host.Outcome State Fault Refusal :=
  onM (fun m =>
    if m.onBus && m.hearsBus && frameBad frame then m.put .a 0x40024 0 8 (satAt 0xFF (m.get .a 0x40024 0 8 + 1)) else m) s

/-- No master is heard (R123, R127). -/
def Mach.deaf (m : Mach) : Mach :=
  (m.modBus (fun b => { b with heard := false, lastHb := none, returning := false, offAsked := false })).put .a 0x40024 15 1 0

/-- MASTER_LOST: R123. -/
def execMasterLost (s : State) : Host.Outcome State Fault Refusal :=
  onM (fun m =>
    if !m.isSlave || !m.hearsBus then m
    else
      let m1 := m.deaf
      if m1.seqState = 1 then (m1.startDown false).servePending
      else if m1.seqState = 3 && m1.bus.grouped then
        let m2 := m1.modBus (fun b => { b with grouped := false })
        if m.bus.stepDone then (m2.runDown m2.toDrop).servePending else m2
      else m1.modBus (fun b => { b with grouped := false })) s

end Sys2Proof.Machine
end

