-- ==== Sys2Proof/Machine/Restart.lean ====
section
/-!
DEFINITION. Starts and restarts of a side and of the module (R81, R86, R368, R595, R602, R667, R669): what is kept, what begins
afresh, how a side leaves service, and how a side reports a fault of its own (R589).
-/

namespace Sys2Proof.Machine

/-! ### Side states (R585) -/

/-- The code of a side state. -/
def sideStCode : SideState → Nat
  | .down => 0
  | .starting => 1
  | .joining => 2
  | .shadow => 3
  | .active => 4
  | .alone => 5

/-- A side changes state: the partner sees it (R618, event 115). -/
def Mach.setSt (m : Mach) (d : SideId) (st : SideState) : Mach :=
  if (m.side d).st = st then m
  else
    let old := sideStCode (m.side d).st
    let m1 := m.modSide d (fun s => { s with st := st })
    if m1.inService d.other then (m1.raiseOn d.other 115).logFor d.other 0x0F noInst 0x0604 1 [old, sideStCode st] else m1

/-! ### What a start keeps (R183, R273, R368, R604, R635, R667, R669) -/

/-- Registers of a side that MRAM holds: the sleep timers (R575), the tamper record and the OTP
counter (R647). -/
def keptRegs : List Nat := [0x20010, 0x20014, 0x20018, 0xFE0004, 0xFE0008]

/-- What a side keeps across a restart. -/
def Side.kept (s : Side) : Side :=
  { Side.init with
    regs := keptRegs.foldl (fun t off => sparsePut resetOf t off (sparseGet resetOf s.regs off)) []
    boots := s.boots
    imc := { Imc.init with retired := s.imc.retired, bad := s.imc.bad }
    boot := s.boot
    bankA := s.bankA, bankB := s.bankB
    core := { s.core with error := false } }

/-- IMC_STAT as MRAM has it (R278): degraded channels and their retired devices. -/
def imcStat (i : Imc) : Nat :=
  ([0, 1, 2, 3].map (fun c => (tabGet 0xF i.retired c) * 2 ^ (4 * c) + b2n (tabHas i.retired c) * 2 ^ (28 + c))).foldl (· + ·) 0

/-- IMC_STAT follows the retirements. -/
def Mach.showRetired (m : Mach) (d : SideId) : Mach :=
  let w := imcStat (m.side d).imc
  (m.put d 0x300004 28 4 (w / 2 ^ 28)).put d 0x300004 0 16 (w % 65536)

/-- The boot record at a start, before anything is verified (R635): a trial is marked as tried, and a trial that was tried before has
failed and falls back. -/
def BootRec.atStart (b : BootRec) : BootRec :=
  if !b.trial then b
  else if b.tried then { b with preferB := !b.preferB, trial := false, tried := false }
  else { b with tried := true }

/-- A side begins its start-up (R81 step 1 or 2) with a RESET_CAUSE. Its encoder counters start at 0: what the module's counters hold by then
is what they read less of until it is level with its partner (R221). -/
def Mach.startSide (m : Mach) (d : SideId) (cause : Nat) : Mach :=
  if !m.fitted d then m
  else
    let m1 := m.modSide d (fun s => { s.kept with
      encZero := ((List.range 4).map (fun n => (n, ((m.encOf n).count, m.encPos n)))).filter (fun e => e.2 != (0, 0)), boots := s.boots + 1, st := s.st, boot := s.boot.atStart, fell := s.boot.trial && s.boot.tried })
    let m2 := { m1 with sec := { m1.sec with held := false, challenge := if m.token = d then none else m1.sec.challenge },
                        shut := { m1.shut with fitTest := 0x7FFF, stopped := clrBitN m1.shut.stopped d.toNat } }
    ((m2.put d mgtStat 16 4 cause).showRetired d).setSt d .starting

/-- A side is held in reset. -/
def Mach.holdSide (m : Mach) (d : SideId) : Mach := (m.modSide d (fun s => { s.kept with st := s.st })).setSt d .down

/-- The OPEN records of the journal become final at a start (R368): REJECT or VOID with RECOVERED. No pulse is fired. -/
def Mach.recoverRecords (m : Mach) : Mach :=
  let m1 := m.pages.foldl (fun t e =>
    let k := e.2.flagAll fRecovered
    let job := tabFind t.jobs k.job
    let ring := (job.map Job.ring).getD 48
    let pos := t.encPos ((job.map Job.encoder).getD 0)
    (k.panels.filter (fun p => !p.final)).foldl (fun u p =>
      let u1 := u.journal ring (fun seq prev => recordBytes seq k p u.token pos prev)
      { u1 with counters := p.taken.foldl commitTaken u1.counters }) t) m
  { m1 with pages := [] }

/-- The module without what a start of the whole module loses (R667): objects, jobs and working state. MRAM, the always-on
domain and what has left the module stay. -/
def Mach.afresh (m : Mach) : Mach :=
  let r := m.recoverRecords
  { Mach.init m.part with
    fresh := m.fresh, rtc := m.rtc, token := m.token, safe := m.safe, seqRegs := m.seqRegs, power := m.power, seq := m.seq
    bus := m.bus
    ilk := { m.ilk with laserEnabled := false }
    a := m.a, b := m.b, records := r.records
    counters := tabMap (fun _ c => { c with limit := none }) r.counters
    tags := m.tags, log := m.log, logSeq := m.logSeq, faults := m.faults, faultCfg := m.faultCfg, io24 := m.io24, out := m.out
    cal := { Cal.init with copies := m.cal.copies, barred := m.cal.barred }
    tokens := tabMap (fun _ x => { Consumable.none with lines := x.lines, cert := x.cert }) m.tokens
    sec := { m.sec with held := false, challenge := none }, shut := m.shut }

/-- A feed that is absent as the module starts is reported (R47, R80); its voltage is a free value. -/
def Mach.reportFeeds (m : Mach) : Mach :=
  let absent (t : Mach) (k : Nat) : Mach := (t.raise 2).logM 0x00 k 0x0201 2 [Config.freeInt m.fresh (20 + k)]
  let m1 := if m.power.feedX1 then m else absent m 0
  if m.power.feedX2 then m1 else absent m1 1

/-- The module restarts (R86): every fitted side starts, and the token is with side A (R84). STATE RELEASED becomes OFF
(R109). DESIGN CHOICE: a restart ends a PB_GRACE timer that runs, though the timer lies in the always-on domain (R111). -/
def Mach.restartModule (m : Mach) (cause : Nat) : Mach :=
  let m1 := { m.afresh with token := .a, safe := false }
  let m2 := { m1 with power := { m1.power with phase := .running, holdoff := false, afterHold := false, grace := false } }
  let m3 := (m2.seqBit 18 false).seqBit 20 false
  let m4 := if m3.seqState = 4 then m3.setSeq 0 else m3
  ((m4.startSide .a cause).startSide .b cause).reportFeeds

/-- Both sides are held in reset; the objects in image memory and in working state are lost. -/
def Mach.holdModule (m : Mach) : Mach :=
  let m1 := m.afresh
  (m1.holdSide .a).holdSide .b

/-! ### Leaving service (R183, R595, R597, R602) -/

/-- RESET_CAUSE of a side. -/
def Mach.resetCause (m : Mach) (d : SideId) : Nat := m.get d mgtStat 16 4

/-- What a lost command had begun is taken back (R183): a HANDOVER's move, and the DRAINING of a JOB_END. Rails go on at CUR_STEP (R106), a
calibration goes on (R548); DESIGN CHOICE: a motion goes on too, and a JOB_ABORT's pages stay ended. -/
def Mach.takeBack (m : Mach) (k : AwaitKind) : Mach :=
  match k with
  | .handover => { m with moving := m.moving.filter (fun x => !x.2) }
  | .jobEnd _ => if m.eng = .draining then m.setEng (if m.pages.isEmpty then .armed else .printing) else m
  | _ => m

/-- The commands that a side had fetched are lost with it (R183); calibrations go on (R548). -/
def Mach.dropFetched (m : Mach) (d : SideId) : Mach :=
  let goes (w : Await) : Bool := w.msg.side == d && w.calRun.isNone
  let gone := (m.awaits.filter goes).map (fun w => w.msg.tag)
  let back := (m.awaits.filter (fun w => goes w && !m.awaits.any (fun v => !goes v && v.kind == w.kind))).map Await.kind
  let t := back.foldl Mach.takeBack m
  { t with
    awaits := m.awaits.filter (fun w => !goes w)
    deferred := m.deferred.filter (fun w => w.msg.side != d)
    flights := m.flights.filter (fun f => f.side != d || (m.awaits.any (fun w => w.msg.tag == f.tag) && !gone.contains f.tag)) }

/-- Bit of LIG_FAULT. -/
def Mach.ligFault (m : Mach) (i : Nat) : Mach :=
  m.onSides Mach.inService (fun d t => t.put d 0xFC0018 i 1 1)

/-- PARTNER_READY goes, and the side left in service is ALONE (R585, R597). -/
def Mach.leftAlone (m : Mach) (d : SideId) : Mach :=
  if m.inService d then
    let m1 := (m.setMgt d 29 false).wr d 0xFC001C 0
    if m.token = d then m1.setSt d .alone else m1
  else m

/-- A side leaves service (R595): it restarts from step 2 of R81 with its RESET_CAUSE, or stays DOWN while its SIDE_FAULT class
is lasting, or until it may restart after a DIE shutdown of its own (R572). Its partner is ALONE. -/
def Mach.leaveService (m : Mach) (d : SideId) : Mach :=
  let cause := m.resetCause d
  let m1 := (m.dropFetched d).ligFault 3
  let m2 := if m1.lasting 0x18 (sideCode d) 0 || hasBit m1.shut.stopped d.toNat then m1.holdSide d
    else (m1.startSide d cause).modSide d (fun s => { s with own := true })
  m2.leftAlone d.other

/-- The arbiter's safe state (R602). Rails and reset outputs keep their state; the outputs are off while it lasts. -/
def Mach.safeState (m : Mach) : Mach :=
  { m with safe := true, ilk := { m.ilk with laserEnabled := false } }

/-- The token holder fails with no partner to take over (R602, R603): safe state, and every fitted side restarts from step 2.
With a job armed, the engine starts in FAULTED with cause 0x05. -/
def Mach.failAlone (m : Mach) : Mach :=
  let live := engLive m.eng || m.eng == .faulted && m.cause == 5
  let ca := m.resetCause .a
  let cb := m.resetCause .b
  let m0 := if live then ({ m.safeState with cause := 5 } : Mach).setEng .faulted else m.safeState
  let m1 := m0.afresh
  let m2 := if live then { m1 with eng := .faulted, cause := 5 } else m1
  let again (t : Mach) (d : SideId) (c : Nat) : Mach :=
    if t.fitted d && (t.side d).st != .down then t.startSide d c else t
  again (again m2 .a ca) .b cb

/-- Mismatches of the last 1 ms are attributed to the side that reports a fault, and count no more (R601). -/
def Mach.uncount (m : Mach) : Mach :=
  let recent := m.redund.misAt.filter (fun e => decide (m.now ≤ e.2 + 1000))
  let m1 := { m with redund := { m.redund with misAt := [] } }
  recent.foldl (fun t e =>
    let f := t.faultInst 0x16 0 e.1
    if f.lasting || f.count = 0 then t
    else { t with faults := sparsePut (fun _ => (⟨0, false⟩ : FaultInst)) t.faults (faultKey 0x16 0 e.1) ⟨f.count - 1, false⟩ }) m1

/-- A side's security core enters its error state (R644, R649): the number of the test that failed is kept in LAST_FAIL. -/
def Mach.coreError (m : Mach) (d : SideId) (test : Nat) : Mach :=
  let m1 := m.modSide d (fun s => { s with core := { s.core with error := true } })
  let m2 := (m1.put d 0xFE0000 29 3 2).put d 0xFE0000 8 8 test
  (m2.raiseOn d 120).logFor d 0x0F noInst 0x0701 3 [(test : Int)]

/-- A side reports a fault of its own (R588, R589): FAULT_N, one count of SIDE_FAULT, and the log entry with its row. A standby
side leaves service at once (R597); when it was to take the token, both sides have failed (R603). -/
def Mach.selfFault (m : Mach) (d : SideId) (row : Nat) : Mach :=
  if !m.inService d then m
  else
    let m1 := ((m.countFault 0x18 (sideCode d) 0).1.logFor d 0x0F noInst 0x060B 3 [row] 0x18).modSide d
      (fun s => { s with faultN := true })
    let m2 := ({ m1 with redund := { m1.redund with faultAt := tabPut m1.redund.faultAt (sideCode d) m1.now } }).uncount
    if m2.token = d then m2
    else if m2.moving = some (m2.token, false) then m2.failAlone
    else m2.leaveService d

end Sys2Proof.Machine
end

