-- ==== Sys2Proof/Machine/ImageMem.lean ====
section
/-!
DEFINITION. Image memory (R264 to R281): what a side's controller does at a read and at a write of a codeword, how it counts,
logs and retires, the scrubber, the BAR2 window (R131, R138), and the region and plane commands (R209, R322 to R327).
-/

namespace Sys2Proof.Machine

/-- The image memories and the module: what a command on image memory acts on. -/
abbrev Mem := Images × Mach

/-! ### Cells -/

/-- The image memory of a side. -/
def Images.side (i : Images) : SideId → Image
  | .a => i.a
  | .b => i.b

/-- The image memories with one side's replaced. -/
def Images.setSide (i : Images) (d : SideId) (x : Image) : Images :=
  match d with
  | .a => { i with a := x }
  | .b => { i with b := x }

/-- A byte of image memory. -/
def Image.get (x : Image) (a : Nat) : Byte := sparseGet (fun _ => 0) x.cells a

/-- Write a byte of image memory. -/
def Image.put (x : Image) (a : Nat) (v : Byte) : Image := { x with cells := sparsePut (fun _ => 0) x.cells a v }

/-- Bytes of image memory. -/
def Image.bytes (x : Image) (a len : Nat) : List Byte := (List.range len).map (fun i => x.get (a + i))

/-- Write bytes of image memory. -/
def Image.write (x : Image) : Nat → List Byte → Image
  | _, [] => x
  | a, v :: vs => (x.put a v).write (a + 1) vs

/-- Forget the symbol errors of a codeword, or hold others. -/
def Image.setErrs (x : Image) (cw : Nat) (es : List (Nat × Byte)) : Image :=
  { x with errs := if es.isEmpty then tabErase x.errs cw else tabPut x.errs cw es }

/-- A slice as initialisation leaves it: zeros with their check symbols (R81, R266). -/
def Image.clearSlice (x : Image) (i : Nat) : Image :=
  { cells := x.cells.filter (fun c => c.1 / 2 ^ 30 != i), errs := x.errs.filter (fun e => e.1 / 2 ^ 24 != i) }

/-! ### Extent (R89, R264) -/

/-- Bytes of user data of a side. -/
def memSize (p : Part) : Nat := slicesOf p * 2 ^ 30

/-- The end of the firmware area. -/
def firmwareEnd : Nat := 0x10000000

/-- SLICE_READY of the slice that holds an offset. -/
def Mach.sliceReady (m : Mach) (d : SideId) (a : Nat) : Bool := decide (a < memSize m.part) && m.mgt d (a / 2 ^ 30)

/-- Whether an offset can be read and written through a window: fitted, ready, and outside the firmware area. -/
def Mach.memOpen (m : Mach) (d : SideId) (a : Nat) : Bool := decide (firmwareEnd ≤ a) && m.sliceReady d a

/-! ### Counting, logging and retiring (R271 to R276, R279) -/

/-- Change the controller of a side. -/
def Mach.modImc (m : Mach) (d : SideId) (f : Imc → Imc) : Mach := m.modSide d (fun s => { s with imc := f s.imc })

/-- An entry of the error log: at 16 entries the oldest is lost (R279, R281). -/
def Mach.logErr (m : Mach) (d : SideId) (e : ErrEntry) : Mach :=
  let old := (m.side d).imc.log
  let m1 := m.modImc d (fun i => { i with log := (if 16 ≤ old.length then old.tail else old) ++ [e] })
  if 16 ≤ old.length then m1.put d 0x30002C 30 1 1 else m1

/-- The mask of the devices that hold some symbols. -/
def deviceMask (corr : List (Nat × Byte)) : Nat := corr.foldl (fun w p => setBitN w (symbolDevice p.1)) 0

/-- A unit is marked bad (R272, R273): up to 256 of them leave the pool. -/
def Mach.markBad (m : Mach) (d : SideId) (a : Nat) (args : List Int) : Mach :=
  let u := a / 65536
  if (m.side d).imc.bad.contains u then m
  else
    let m1 := m.modImc d (fun i => if i.bad.length < 256 then { i with bad := i.bad ++ [u] } else i)
    (m1.raiseOn d 9).logFor d 0x03 noInst 0x0004 3 args

/-- The action of a lasting fault of a device (R272): it is retired, or its channel is degraded already. -/
def Mach.retire (m : Mach) (d : SideId) (c dev : Nat) (args : List Int) : Mach :=
  if tabHas (m.side d).imc.retired c then
    let m1 := (m.raiseOn d 9).logFor d 0x03 noInst 0x0005 3 args
    if m1.part = .w9d then m1.selfFault d 5 else m1
  else
    ((((m.modImc d (fun i => { i with retired := tabPut i.retired c dev })).showRetired d).raiseOn d 9).logFor d 0x03 noInst
      0x0003 3 args)

/-- The slot of the codeword table that a corrected codeword takes (R271): its own, a free one, or that of the entry with
the lowest count, the oldest first. -/
def Mach.ceSlot (m : Mach) (d : SideId) (cw : Nat) : Nat :=
  let t := (m.side d).imc.tracked
  match t.find? (fun e => e.2.cw == cw) with
  | some e => e.1
  | none =>
    match (List.range 64).find? (fun i => !tabHas t i) with
    | some i => i
    | none =>
      let c (e : Nat × CeEntry) : Nat := (m.faultInst 0x02 (sideCode d) e.1).count
      let least := t.foldl (fun (best : Option (Nat × CeEntry)) e => match best with
        | none => some e
        | some b => if c e < c b ∨ (c e = c b ∧ e.2.age < b.2.age) then some e else some b) none
      (least.map Prod.fst).getD 0

/-- The consequences of a corrected codeword (R271 steps 3 to 5, R272). -/
def Mach.corrected (m : Mach) (d : SideId) (cw src inst : Nat) (corr : List (Nat × Byte)) : Mach :=
  let devs := deviceMask corr
  let c := cw / 4 % 4
  let args : List Int := [(64 * cw : Nat), c, devs, src]
  let m1 := m.addSat d 0x300008 1
  let m2 := m1.logErr d { addr := 64 * cw, uncorr := false, source := src, devices := devs, symbols := corr.length, inst := inst }
  let m3 := m2.logFor d 0x03 noInst 0x0001 2 args 0x02
  let slot := m3.ceSlot d cw
  let fresh := ((tabFind (m3.side d).imc.tracked slot).map CeEntry.cw) != some cw
  let m4 := if fresh then
      (m3.clearFault 0x02 (sideCode d) slot).modImc d (fun i => { i with
        tracked := tabPut i.tracked slot ⟨cw, devs, i.nextAge⟩, nextAge := i.nextAge + 1 })
    else m3.modImc d (fun i => { i with tracked := tabUpd i.tracked slot (fun e => { e with devs := devs }) })
  let r := m4.countFault 0x02 (sideCode d) slot
  let m5 := if r.2 then
      let u := match bitsOf devs 9 with
        | [dev] => r.1.retire d c dev args
        | _ => r.1.markBad d (64 * cw) args
      (u.clearFault 0x02 (sideCode d) slot).modImc d (fun i => { i with tracked := tabErase i.tracked slot })
    else r.1
  (bitsOf devs 9).foldl (fun t dev =>
    let q := t.countFault 0x03 (sideCode d) (9 * c + dev)
    if q.2 then q.1.retire d c dev args else q.1) m5

/-- The consequences of an uncorrectable codeword for every reader (R274). -/
def Mach.uncorrectable (m : Mach) (d : SideId) (cw src inst : Nat) : Mach :=
  let args : List Int := [(64 * cw : Nat), (cw / 4 % 4 : Nat), 0, src]
  let m1 := m.addSat d 0x30000C 1
  let m2 := m1.logErr d { addr := 64 * cw, uncorr := true, source := src, devices := 0, symbols := 0, inst := inst }
  ((m2.raiseOn d 9).logFor d 0x03 noInst 0x0002 3 args).markBad d (64 * cw) args

/-! ### Reading and writing codewords (R267, R268, R671) -/

/-- The raw symbol errors that a command brings for a codeword. -/
def errsAt (errs : SymErrs) (cw : Nat) : List (Nat × Byte) :=
  errs.foldl (fun t e => if e.1 / 64 = cw then symAdd t (e.2.filter (fun p => decide (p.1 < 72))) else t) []

/-- A read of one codeword by a reader (R280): the 64 bytes it delivers, or none where the codeword is uncorrectable. A
corrected codeword is written back. -/
def readCw (d : SideId) (cw src inst : Nat) (raw : List (Nat × Byte)) (x : Mem) : Mem × Option (List Byte) :=
  let img := x.1.side d
  let pat := symAdd (tabGet [] img.errs cw) raw
  let stored := img.bytes (64 * cw) 64
  match tabFind (x.2.side d).imc.retired (cw / 4 % 4) with
  | some dev =>
    ((x.1.setSide d (img.setErrs cw pat), x.2), some (applySymbols stored (symAdd pat (rsErase dev pat))))
  | none =>
    match rsDecode pat with
    | none => ((x.1.setSide d (img.setErrs cw pat), x.2.uncorrectable d cw src inst), none)
    | some [] => ((x.1.setSide d (img.setErrs cw pat), x.2), some (applySymbols stored pat))
    | some corr =>
      let bytes := applySymbols stored (symAdd pat corr)
      ((x.1.setSide d ((img.write (64 * cw) bytes).setErrs cw []), x.2.corrected d cw src inst corr), some bytes)

/-- A write into one codeword from byte `lo` of it: all 64 bytes, or a read, correction, merge and write (R268). -/
def writeCw (d : SideId) (cw lo inst : Nat) (bs : List Byte) (raw : List (Nat × Byte)) (x : Mem) : Mem :=
  if bs.length = 64 then (x.1.setSide d (((x.1.side d).write (64 * cw) bs).setErrs cw []), x.2)
  else
    match readCw d cw 6 inst raw x with
    | (y, none) => y
    | (y, some old) =>
      (y.1.setSide d (((y.1.side d).write (64 * cw) (old.take lo ++ bs ++ old.drop (lo + bs.length))).setErrs cw []), y.2)

/-- Cut a range into codewords: the codeword, the first byte within it, and the length. -/
def cutCw : Nat → Nat → Nat → List (Nat × Nat × Nat)
  | 0, _, _ => []
  | fuel + 1, a, len =>
    if len = 0 then []
    else
      let n := min len (64 - a % 64)
      (a / 64, a % 64, n) :: cutCw fuel (a + n) (len - n)

/-- What a read of a range gives: the bytes, and the offset of the first uncorrectable codeword. -/
structure ReadOut where
  bytes : List Byte
  bad   : Option Nat
  deriving DecidableEq, Repr

/-- One codeword of a read. A reader that stops goes no further than an uncorrectable codeword. -/
def readStep (d : SideId) (src inst : Nat) (stop : Bool) (errs : SymErrs) (r : Mem × ReadOut) (p : Nat × Nat × Nat) :
    Mem × ReadOut :=
  if stop && r.2.bad.isSome then r
  else if !r.1.2.sliceReady d (64 * p.1) then (r.1, { r.2 with bytes := r.2.bytes ++ List.replicate p.2.2 0 })
  else
    match readCw d p.1 src inst (errsAt errs p.1) r.1 with
    | (y, some bs) => (y, { r.2 with bytes := r.2.bytes ++ (bs.drop p.2.1).take p.2.2 })
    | (y, none) => (y, { bytes := r.2.bytes ++ List.replicate p.2.2 0xFF, bad := some (r.2.bad.getD (64 * p.1)) })

/-- A read of a range of a side's image memory. -/
def memRead (d : SideId) (a len src inst : Nat) (stop : Bool) (errs : SymErrs) (x : Mem) : Mem × ReadOut :=
  (cutCw (len + 1) a len).foldl (readStep d src inst stop errs) (x, ⟨[], none⟩)

/-- One codeword of a write: discarded outside the slices that are ready (R89). -/
def writeStep (d : SideId) (inst : Nat) (errs : SymErrs) (r : Mem × List Byte) (p : Nat × Nat × Nat) : Mem × List Byte :=
  let rest := r.2.drop p.2.2
  if r.1.2.sliceReady d (64 * p.1) then (writeCw d p.1 p.2.1 inst (r.2.take p.2.2) (errsAt errs p.1) r.1, rest)
  else (r.1, rest)

/-- A write of a range of a side's image memory. -/
def memWrite (d : SideId) (a inst : Nat) (bs : List Byte) (errs : SymErrs) (x : Mem) : Mem :=
  ((cutCw (bs.length + 1) a bs.length).foldl (writeStep d inst errs) (x, bs)).1

/-- A write that is applied on the partner too (R138, R294). -/
def memWriteBoth (d : SideId) (a inst : Nat) (bs : List Byte) (errs partnerErrs : SymErrs) (x : Mem) : Mem :=
  let y := memWrite d a inst bs errs x
  if x.2.mgt d 29 then memWrite d.other a inst bs partnerErrs y else y

/-! ### The BAR2 window (R129, R131, R264) -/

/-- The part of a range that lies outside the firmware area and inside the fitted memory: how many bytes to skip, and how
many follow. -/
def openRange (p : Part) (a len : Nat) : Nat × Nat :=
  let skip := min len (firmwareEnd - a)
  (skip, min (len - skip) (memSize p - (a + skip)))

/-- BAR2_READ: R131, the completion before the memory fault event that it may raise, with zeros for the firmware area (R264) and for slices not ready (R89). An endpoint that does not answer
gives no completion. -/
def execBar2Read (d : SideId) (addr len : Nat) (errs : SymErrs) (s : State) : Host.Outcome State Fault Refusal :=
  onMem (fun img m =>
    if !(m.side d).endpoint || (m.side d).d3 then (img, m)
    else
      let r := openRange m.part addr len
      let got := (memRead d (addr + r.1) r.2 3 0xFF false errs (img, m)).2
      let bytes := List.replicate r.1 0 ++ got.bytes ++ List.replicate (len - r.1 - r.2) 0
      let out := if got.bad.isSome then Out.completion d (List.replicate len 0xFF) true else .completion d bytes false
      (memRead d (addr + r.1) r.2 3 0xFF false errs (img, m.emit out)).1) s

/-- BAR2_WRITE: R138, R264, R268. -/
def execBar2Write (d : SideId) (addr : Nat) (data : List Byte) (errs partnerErrs : SymErrs) (s : State) :
    Host.Outcome State Fault Refusal :=
  onMem (fun img m =>
    if !(m.side d).endpoint || (m.side d).d3 then (img, m)
    else
      let r := openRange m.part addr data.length
      memWriteBoth d (addr + r.1) 0xFF ((data.drop r.1).take r.2) errs partnerErrs (img, m)) s

/-! ### The scrubber (R270) -/

/-- The codeword to scrub from an offset upward, and whether the pass ended before it: slices that are not ready are skipped. -/
def Mach.scrubNext (m : Mach) (d : SideId) (pos : Nat) : Option (Nat × Bool) :=
  let ready := (List.range (slicesOf m.part)).filter (fun i => m.mgt d i)
  match ready.find? (fun i => decide (pos / 2 ^ 30 ≤ i)) with
  | some i => some (max pos (i * 2 ^ 30), false)
  | none => (ready.head?).map (fun i => (i * 2 ^ 30, true))

/-- A scrub pass ends, at an offset. Whether it kept its period is not told. The entry's ARGS (R276) hold that offset, its channel, no
device and the scrubber as the source. -/
def Mach.scrubPass (m : Mach) (d : SideId) (a : Nat) : Mach :=
  let m1 := m.wr d 0x300018 (m.rd d 0x300018 + 1)
  if Config.freeBool m.fresh 700 then (m1.put d 0x300004 27 1 1).logFor d 0x03 noInst 0x0006 1 [a, a / 64 / 4 % 4, 0, 0] else m1

/-- SCRUB_READ: R270. -/
def execScrubRead (d : SideId) (errs : SymErrs) (s : State) : Host.Outcome State Fault Refusal :=
  onMem (fun img m =>
    if !m.fitted d || m.get d 0x300000 0 1 = 0 then (img, m)
    else
      match m.scrubNext d (m.side d).imc.scrub with
      | none => (img, m)
      | some (a, wrapped) =>
        let m1 := if wrapped then m.scrubPass d a else m
        let r := readCw d (a / 64) 0 0xFF (errsAt errs (a / 64)) (img, m1)
        let nxt := a + 64
        let m2 := r.1.2.modImc d (fun i => { i with scrub := if memSize m.part ≤ nxt then 0 else nxt })
        (r.1.1, if memSize m.part ≤ nxt then m2.scrubPass d a else m2)) s

/-- IMC_ERR_POP: R281. -/
def execImcErrPop (d : SideId) (s : State) : Host.Outcome State Fault Refusal :=
  onM (fun m => m.modImc d (fun i => { i with log := i.log.tail })) s

/-! ### Regions (R209) -/

/-- Insert an interval in order of its start. -/
def insertSpan : List (Nat × Nat) → Nat × Nat → List (Nat × Nat)
  | [], x => [x]
  | y :: t, x => if x.1 ≤ y.1 then x :: y :: t else y :: insertSpan t x

/-- The gaps between intervals in order, from one unit up to another. -/
def gapsOf : List (Nat × Nat) → Nat → Nat → List (Nat × Nat)
  | [], lo, hi => if lo < hi then [(lo, hi - lo)] else []
  | (a, n) :: t, lo, hi => if lo < a then (lo, a - lo) :: gapsOf t (max lo (a + n)) hi else gapsOf t (max lo (a + n)) hi

/-- The free blocks of image memory, in 64 KiB units: neither allocated nor bad on a fitted side (R209, R273). -/
def Mach.freeBlocks (m : Mach) : List (Nat × Nat) :=
  let used := (tabVals m.regions).map (fun r => (r.off / 65536, r.bytes / 65536))
  let bad := [SideId.a, .b].flatMap (fun d => if m.fitted d then (m.side d).imc.bad.map (fun u => (u, 1)) else [])
  gapsOf ((used ++ bad).foldl insertSpan []) (firmwareEnd / 65536) (memSize m.part / 65536)

/-- The largest free block in units. -/
def Mach.largestFree (m : Mach) : Nat := (m.freeBlocks.map Prod.snd).foldl max 0

/-- An identifier that names nothing yet, from a free first choice upward; 0 and 0xFFFF_FFFF name no object (R207, R288). -/
def pickId {α : Type} (t : Tab α) : Nat → Nat → Nat
  | 0, n => n
  | fuel + 1, n => if tabHas t n then pickId t fuel (n % 0xFFFFFFFE + 1) else n

/-- A new identifier: the spec gives no rule for its value, so the first choice is free. -/
def Mach.newId {α : Type} (m : Mach) (t : Tab α) (k : Nat) : Nat :=
  pickId t (t.length + 1) (Config.freeNat m.fresh k % 0xFFFFFFFE + 1)

/-- A plane that the armed job or a defined job refers to (R186, R197). -/
def Mach.planeUsed (m : Mach) (id : Nat) : Bool :=
  m.jobs.any (fun j => j.2.queue.any (fun p => p.planes.contains id)) || m.pages.any (fun p => p.2.planes.contains id)

/-- A region with such a plane, or with a screening set of the armed job or of a defined job. -/
def Mach.regionUsed (m : Mach) (id : Nat) : Bool :=
  m.planes.any (fun p => p.2.region == id && m.planeUsed p.1) ||
    m.jobs.any (fun j => (bitsOf j.2.stations 6).any (fun s => j.2.screens.getD s 0 == id))

/-- MEM_ALLOC's plan: which free block is taken is not told. -/
def planMemAlloc (msg : Msg) (m : Mach) : Plan :=
  let units := ceilDiv (numAt msg.payload 0 8) 65536
  let fits := m.freeBlocks.filter (fun b => decide (units ≤ b.2))
  let b := fits.getD (Config.freeNat m.fresh 701 % fits.length) (0, 0)
  let off := 65536 * (b.1 + Config.freeNat m.fresh 702 % (b.2 - units + 1))
  let id := m.newId m.regions 703
  { param := firstBad [(units == 0, 0)]
    refuse := if fits.isEmpty then some (stNoMemory, m.largestFree) else none
    reply := leBytes 4 id ++ leBytes 8 off
    act := fun t => { t with regions := tabPut t.regions id { off := off, bytes := 65536 * units } } }

/-- MEM_ALLOC: R209. -/
def execMemAlloc (msg : Msg) (s : State) : Host.Outcome State Fault Refusal :=
  onM (fun m => m.runCmd { opcode := 0x0401, lenMin := 8, lenMax := 8, states := inCAPDF } msg (planMemAlloc msg)) s

/-- MEM_FREE's plan. -/
def planMemFree (msg : Msg) (m : Mach) : Plan :=
  let id := numAt msg.payload 0 4
  { refuse := if !tabHas m.regions id then some (stNotFound, id)
              else if m.regionUsed id then some (stInUse, id) else none
    act := fun t => { t with regions := tabErase t.regions id } }

/-- MEM_FREE: R209, R197. -/
def execMemFree (msg : Msg) (s : State) : Host.Outcome State Fault Refusal :=
  onM (fun m => m.runCmd { opcode := 0x0402, lenMin := 4, lenMax := 4, states := inCAPDF } msg (planMemFree msg)) s

/-- MEM_READ_STAT: R209, per side. -/
def execMemReadStat (msg : Msg) (s : State) : Host.Outcome State Fault Refusal :=
  onM (fun m => m.runCmd { opcode := 0x0406, lenMin := 0, lenMax := 0, states := inCAPDF, perSide := true } msg (fun t =>
    let d := affinitySide msg
    { reply := leBytes 8 (65536 * (t.freeBlocks.map Prod.snd).foldl (· + ·) 0) ++ leBytes 8 (65536 * t.largestFree) ++
        leBytes 2 (t.get d mgtStat 0 16) ++ leBytes 2 (t.get d 0x300004 0 16) ++ wordBytes (t.rd d 0x300008) })) s

/-! ### Planes (R304, R305, R327) -/

/-- Whether every slice of a range is ready on the sides in service (R89). -/
def Mach.rangeReady (m : Mach) (a len : Nat) : Bool :=
  let slices := (List.range 17).filter (fun i => decide (a < (i + 1) * 2 ^ 30 ∧ i * 2 ^ 30 < a + len))
  [SideId.a, .b].all (fun d => !m.inService d || slices.all (fun i => m.sliceReady d (i * 2 ^ 30)))

/-- The bytes of a raw plane without tags, and with them (R304). -/
def rawBytes (width lines : Nat) : Nat × Nat := (lines * width, lines * (width + ceilDiv width 4))

/-- Whether the first band header of a stream is valid (R307, R313), whatever its width: MARK, FIRST, reserved fields, LINES,
BAND_NO 0, TAG_INIT and HDR_CRC. -/
def firstHeaderOk (h : List Byte) : Bool :=
  numAt h 0 1 == 0xF8 && (numAt h 1 1 == 2 || numAt h 1 1 == 3) && decide (1 ≤ numAt h 2 2 ∧ numAt h 2 2 ≤ 1024) &&
    numAt h 4 4 == 0 && decide (numAt h 12 1 ≤ 3) && numAt h 13 3 == 0 && numAt h 20 8 == 0 &&
    wordAt h 28 == crc32c (h.take 28)

/-- The place of a plane that PLANE_DEFINE names: its first offset in image memory. -/
def Mach.planeAt (m : Mach) (msg : Msg) : Nat :=
  ((tabFind m.regions (numAt msg.payload 0 4)).map Region.off).getD 0 + numAt msg.payload 4 8

/-- PLANE_DEFINE's plan, given what the first header reads as on each side (none before it is read). -/
def planPlaneDefine (msg : Msg) (header : Option ReadOut) (m : Mach) : Plan :=
  let p := msg.payload
  let rid := numAt p 0 4
  let off := numAt p 4 8
  let codec := numAt p 12 1 == 1
  let width := numAt p 14 2
  let lines := numAt p 16 4
  let bytes := numAt p 20 4
  let room := ((tabFind m.regions rid).map Region.bytes).getD (2 ^ 64)
  let raw := rawBytes width lines
  let id := m.newId m.planes 704
  let badHeader := match header with
    | some h => codec && h.bad.isNone && !firstHeaderOk h.bytes
    | none => false
  let badWidth := match header with
    | some h => codec && h.bad.isNone && numAt h.bytes 8 4 != width
    | none => false
  { param := firstBad [(decide (room ≤ off) || badHeader, 4), (decide (1 < numAt p 12 1), 12), (numAt p 13 1 != 0, 13),
      (width == 0 || decide (24567 < width) || badWidth, 14), (lines == 0, 16),
      (decide (room < off + bytes) || (!codec && bytes != raw.1 && bytes != raw.2) || (codec && decide (bytes < 32)), 20)]
    state := !m.rangeReady (m.planeAt msg) bytes
    refuse := if !tabHas m.regions rid then some (stNotFound, rid)
              else (header.bind ReadOut.bad).map (fun a => (stMemError, (a - m.planeAt msg) / 4))
    reply := leBytes 4 id
    act := fun t =>
      let new : Plane := { region := rid, off := m.planeAt msg, codec := codec, width := width, lines := lines, bytes := bytes }
      { t with planes := tabPut t.planes id new } }

/-- The definition of PLANE_DEFINE's row. -/
def cmdPlaneDefine : CmdDef := { opcode := 0x0403, lenMin := 24, lenMax := 24, states := inCAPD }

/-- Whether a command passes every check of R187 as planned. -/
def Mach.accepts (m : Mach) (c : CmdDef) (msg : Msg) (p : Plan) : Bool :=
  (malformedAt c msg).isNone && m.tagVerdict c.opcode msg == .new && (m.refusal c msg p).isNone

/-- A read by a Mouthpiece command on every side in service (R184): the token holder's result counts. -/
def readOnSides (a len : Nat) (x : Mem) : Mem × ReadOut :=
  let r := memRead x.2.token a len 5 0xFF true [] x
  if x.2.inService x.2.token.other then
    ((memRead x.2.token.other a len 5 0xFF true [] r.1).1, r.2)
  else r

/-- PLANE_DEFINE: R209, R304, R327, R89. A codec plane's first header is read once every other check has passed. -/
def execPlaneDefine (msg : Msg) (s : State) : Host.Outcome State Fault Refusal :=
  onMem (fun img m =>
    if m.accepts cmdPlaneDefine msg (planPlaneDefine msg none m) && numAt msg.payload 12 1 == 1 then
      let r := readOnSides (m.planeAt msg) 32 (img, m)
      (r.1.1, r.1.2.runCmd cmdPlaneDefine msg (planPlaneDefine msg (some r.2)))
    else (img, m.runCmd cmdPlaneDefine msg (planPlaneDefine msg none))) s

/-- PLANE_DELETE's plan. -/
def planPlaneDelete (msg : Msg) (m : Mach) : Plan :=
  let id := numAt msg.payload 0 4
  { refuse := if !tabHas m.planes id then some (stNotFound, id)
              else if m.planeUsed id then some (stInUse, id) else none
    act := fun t => { t with planes := tabErase t.planes id } }

/-- PLANE_DELETE: R209, R197. -/
def execPlaneDelete (msg : Msg) (s : State) : Host.Outcome State Fault Refusal :=
  onM (fun m => m.runCmd { opcode := 0x0405, lenMin := 4, lenMax := 4, states := inCAPDF } msg (planPlaneDelete msg)) s

end Sys2Proof.Machine
end

