-- ==== Sys2Proof/Machine/Screen.lean ====
section
/-!
DEFINITION. Screening and beam formatting as functions of the screening set (R376 to R400): the set's checks, the curves and
their ramp, threshold arrays and levels, the mask's division into passes, and the lanes and planes of an LED head.
-/

namespace Sys2Proof.Machine

/-! ### The set (R376, R377) -/

/-- ARRAYS. -/
def setArrays (set : List Byte) : Nat := numAt set 6 1
/-- MASK_MODE MULTI. -/
def setMulti (set : List Byte) : Bool := numAt set 9 1 == 1
/-- PULSE_ALIGN. -/
def setAlign (set : List Byte) : Nat := numAt set 10 1
/-- DERATE_PCT. -/
def setDerate (set : List Byte) : Nat := numAt set 11 1
/-- X_OFFSET. -/
def setXOffset (set : List Byte) : Nat := numAt set 12 2
/-- LED_PLANES. -/
def setPlanes (set : List Byte) : Nat := numAt set 22 1
/-- LED_LANES. -/
def setLanes (set : List Byte) : Nat := numAt set 23 1
/-- STROBE_UNIT in ns. -/
def setStrobe (set : List Byte) : Nat := numAt set 28 2

/-- An entry of ARRAY_DIR: offset, W, H, PHASE_X, PHASE_Y. -/
def setArray (set : List Byte) (i : Nat) : Nat × Nat × Nat × Nat × Nat :=
  let b := 32 + 16 * i
  (numAt set b 4, numAt set (b + 4) 2, numAt set (b + 6) 2, numAt set (b + 8) 2, numAt set (b + 10) 2)

/-- The 16-bit words from an offset. -/
def setWords (set : List Byte) (off n : Nat) : List Nat := (chunks 2 n ((set.drop off).take (2 * n))).map leNat

/-- Whether an array of the directory is sound (R382). -/
def arrayOk (set : List Byte) (total i : Nat) : Bool :=
  let a := setArray set i
  let w := a.2.1
  let h := a.2.2.1
  numAt set (44 + 16 * i) 4 == 0 &&
    (if i < setArrays set then
      decide (4 ≤ w ∧ w ≤ 2048) && w % 4 == 0 && decide (1 ≤ h ∧ h ≤ 2048) && decide (a.1 + 2 * w * h ≤ total) &&
        (setWords set a.1 (w * h)).all (fun t => decide (t ≤ 4094))
    else numAt set (32 + 16 * i) 16 == 0)

/-- Whether a screening set passes every check for a station (R376, R377, R379, R382, R389). -/
def setOk (led dpi600 : Bool) (facets : Nat) (set : List Byte) : Bool :=
  let total := numAt set 104 4
  let passes := numAt set 8 1
  let n := setArrays set
  let used := numAt set 18 2
  let spare0 := numAt set 20 1
  let spare1 := numAt set 21 1
  let laserOk := decide (setAlign set ≤ 2) && decide (used % 2 ^ facets ≠ 0) &&
    decide (32 ≤ spare0 ∧ spare0 ≤ 63 ∧ 32 ≤ spare1 ∧ spare1 ≤ 63) && spare0 != spare1 && numAt set 22 8 == 0
  let ledOk := setAlign set == 0 && used == 0 && numAt set 20 2 == 0 && passes == 1 &&
    decide (1 ≤ setPlanes set ∧ setPlanes set ≤ 4) && decide (1 ≤ setLanes set ∧ setLanes set ≤ 32) &&
    decide (numAt set 24 1 ≤ 3) && decide (25 ≤ numAt set 25 1 ∧ numAt set 25 1 ≤ 200) &&
    decide (1 ≤ numAt set 26 2 ∧ numAt set 26 2 ≤ 24576) && decide (20 ≤ setStrobe set ∧ setStrobe set ≤ 20000)
  let maskOk := if passes = 1 then numAt set 100 4 == 0 else
    let k := numAt set 14 2 * numAt set 16 2
    decide (numAt set 100 4 + k ≤ total) && ((set.drop (numAt set 100 4)).take k).all (fun v => decide (v.toNat < passes))
  numAt set 0 4 == 0x53524353 && numAt set 4 2 == 1 && decide (256 ≤ total ∧ total ≤ 1179648 ∧ total ≤ set.length) &&
    decide (1 ≤ n ∧ n ≤ 4) && [0, 1, 2, 3].all (fun t => decide ((numAt set 7 1 >>> (2 * t)) % 4 < n)) &&
    (passes == 1 || passes == 2 || passes == 4) && decide (numAt set 9 1 ≤ 1) && (passes != 1 || numAt set 9 1 == 0) &&
    decide (50 ≤ setDerate set ∧ setDerate set ≤ 100) && decide (setXOffset set ≤ (if dpi600 then 12283 else 24566)) &&
    decide (1 ≤ numAt set 14 2 ∧ numAt set 14 2 ≤ 256 ∧ 1 ≤ numAt set 16 2 ∧ numAt set 16 2 ≤ 256) &&
    numAt set 30 2 == 0 && (if led then ledOk else laserOk) && [0, 1, 2, 3].all (arrayOk set total) &&
    decide ((List.range n).foldl (fun c i => c + (setArray set i).2.1 * (setArray set i).2.2.1) 0 ≤ 524288) &&
    decide (numAt set 96 4 + 2048 ≤ total) && (setWords set (numAt set 96 4) 1024).all (fun v => decide (v < 4096)) &&
    maskOk && numAt set 108 144 == 0 &&
    wordAt set 252 == crc32c (set.take 252 ++ (set.drop 256).take (total - 256))

/-- The TRC table of a set: 4 curves of 256 entries (R379). -/
def setCurves (set : List Byte) : List Nat := setWords set (numAt set 96 4) 1024

/-! ### Curves and levels (R379 to R384) -/

/-- Dots of a station line (R385). -/
def stnDots (dpi600 : Bool) : Nat := if dpi600 then 12284 else 24567

/-- An entry of a curve at step `k` of a ramp of `len` lines: the division truncates toward 0 (R380). -/
def rampAt (old new : Nat) (k len : Nat) : Nat := ((old : Int) + Int.tdiv (((new : Int) - old) * k) len).toNat

/-- The curves of a line in a ramp. -/
def rampCurves (old new : List Nat) (k len : Nat) : List Nat := (old.zip new).map (fun p => rampAt p.1 p.2 k len)

/-- The curve output with the derate's gain (R384). -/
def derateGain (set : List Byte) (on : Bool) (v : Nat) : Nat := if on then min 4095 (v * 100 / setDerate set) else v

/-- The level of a dot (R383). -/
def levelOf (set : List Byte) (curves : List Nat) (derate : Bool) (x y : Nat) (d : Dot) : Nat :=
  let v := derateGain set derate (curves.getD (256 * d.2 + d.1.toNat) 0)
  let a := setArray set ((numAt set 7 1 >>> (2 * d.2)) % 4)
  let w := a.2.1
  let cx := (x + a.2.2.2.1) % w
  let cy := (y + a.2.2.2.2) % a.2.2.1
  (15 * v + numAt set (a.1 + 2 * (cy * w + cx)) 2) / 4095

/-- The dots of a station line: the plane's dots from X_OFFSET on, contone 0 with tag 0 elsewhere (R385). -/
def placeDots (set : List Byte) (dpi600 : Bool) (dots : List Dot) : List Dot :=
  let n := stnDots dpi600
  let line := List.replicate (setXOffset set) (0, 0) ++ dots
  line.take n ++ List.replicate (n - line.length) (0, 0)

/-- The levels of a station line. -/
def screenLine (set : List Byte) (curves : List Nat) (derate : Bool) (y : Nat) (line : List Dot) : List Nat :=
  line.mapIdx (fun x d => levelOf set curves derate x y d)

/-- The 1200 dpi levels of a station line (R386): each 600 dpi dot twice, without dot 24 567. -/
def fineLevels (dpi600 : Bool) (levels : List Nat) : List Nat :=
  if dpi600 then (levels.flatMap (fun l => [l, l])).take 24567 else levels

/-! ### Passes (R389, R394) -/

/-- The mask value of a dot. -/
def maskOf (set : List Byte) (x y : Nat) : Nat :=
  let w := numAt set 14 2
  if numAt set 8 1 = 1 then 0 else numAt set (numAt set 100 4 + (y % numAt set 16 2) * w + x % w) 1

/-- The pass that takes a dot of a missing pass: the next available of p − 1, p − 2 and so on. -/
def takeOver (passes m : Nat) (avail : List Nat) : Option Nat :=
  ((List.range passes).map (fun i => (m + passes - i) % passes)).find? (fun p => avail.contains p)

/-- The level that a pass exposes of a dot, over the passes that have an emitter (R389, R394 step 2). -/
def passLevel (set : List Byte) (avail : List Nat) (p m l : Nat) : Nat :=
  if setMulti set then
    let n := avail.length
    match avail.idxOf? p with
    | some i => (l + (i + m) % n) / n
    | none => 0
  else if takeOver (numAt set 8 1) m avail = some p then l else 0

/-! ### LED heads (R388, R397, R400) -/

/-- The bit of a level that plane k carries. -/
def planeBit (set : List Byte) (k l : Nat) : Bool := hasBit l (4 - setPlanes set + k)

/-- The bit positions of each lane: D. -/
def laneLength (set : List Byte) : Nat := ceilDiv (numAt set 26 2) (setLanes set)

/-- The head dot at a bit position of a lane. -/
def headDot (set : List Byte) (lane i : Nat) : Nat :=
  if hasBit (numAt set 24 1) 0 then i * setLanes set + lane else lane * laneLength set + i

/-- What each lane shifts for plane k of a line, first bit first. -/
def laneBits (set : List Byte) (k : Nat) (levels : List Nat) : List (List Bool) :=
  (List.range (setLanes set)).map (fun lane =>
    let bits := (List.range (laneLength set)).map (fun i =>
      let h := headDot set lane i
      decide (h < numAt set 26 2) && planeBit set k (levels.getD h 0))
    if hasBit (numAt set 24 1) 1 then bits.reverse else bits)

/-- STROBE_UNIT_eff in ns (R402). -/
def strobeEff (set : List Byte) (derate : Bool) : Nat :=
  if derate then setStrobe set * setDerate set / 100 else setStrobe set

/-- The minimum latch interval in 10^-3 ns × f MHz, that is the interval times the lane clock (R400): the interval is this over
1000 f, in µs. -/
def latchUnits (set : List Byte) (derate : Bool) : Nat :=
  max (1000 * (laneLength set + 1)) (strobeEff set derate * 2 ^ (setPlanes set - 1) * numAt set 25 1 + 2000)

/-- E_LED in lines/s (R400), rounded down. -/
def ledLimit (set : List Byte) (derate : Bool) : Nat :=
  1000 * numAt set 25 1 * 1000000 / (setPlanes set * latchUnits set derate)

/-! ### Placement along the sweep (R423 to R425, R428) -/

/-- Factors of a sweep at an emitter: q, facet scale and offset, the emitter's beam_div and beam_delay, DOT0, and the segments'
g_k. -/
structure Placement where
  q     : Int
  scale : Int
  div   : Int
  start : Int
  seg   : List Int
  deriving DecidableEq, Repr

/-- The step of a segment, with 20 fractional bits (R424). -/
def Placement.step (p : Placement) (k : Nat) : Int := 64 * (2 ^ 20 + p.q + p.scale + p.div + p.seg.getD k 0)

/-- The position of a dot from the sweep's SOS, with 20 fractional bits. -/
def Placement.acc (p : Placement) (x : Nat) : Int :=
  (List.range 64).foldl (fun a k => a + p.step k * ((min x (384 * (k + 1)) - min x (384 * k) : Nat) : Int)) (p.start * 2 ^ 20)

/-- The pulse of a dot before merging: on and off, in grid units from the SOS; none for level 0 (R425). A pulse shorter than
`least` is lengthened away from its alignment. -/
def Placement.pulse (p : Placement) (align : Nat) (least : Int) (x l : Nat) : Option (Int × Int) :=
  if l = 0 then none
  else
    let st := p.step (x / 384)
    let s0 := p.acc x / 2 ^ 20
    let w := (l : Int) * st / 2 ^ 24
    let on := if align = 0 then s0 else if align = 1 then s0 + (st - w * 2 ^ 20) / 2 ^ 21 else s0 + st / 2 ^ 20 - w
    let off := on + w
    let short := least - w
    if short ≤ 0 then some (on, off)
    else if align = 0 then some (on, off + short)
    else if align = 1 then some (on - short / 2, off + (short - short / 2))
    else some (on - short, off)

/-- Merge pulses of adjacent dots that lie closer together than the minimum gap (R425). -/
def mergePulses (gap : Int) : List (Int × Int) → List (Int × Int)
  | [] => []
  | p :: t =>
    match mergePulses gap t with
    | [] => [p]
    | q :: u => if q.1 - p.2 < gap then (p.1, max p.2 q.2) :: u else p :: q :: u

/-- The pulses of an emitter in a sweep. -/
def Placement.pulses (p : Placement) (align : Nat) (least gap : Int) (levels : List Nat) : List (Int × Int) :=
  mergePulses gap ((levels.mapIdx (fun x l => p.pulse align least x l)).filterMap id)

end Sys2Proof.Machine
end

