-- ==== Sys2Proof/Machine/Symbols.lean ====
section
/-!
DEFINITION. Symbols (R347): the modules of Code 128, EAN-13, Data Matrix and QR Code symbols of given data. The spec names the standards
and holds none of their tables; the tables here are the standards' (PRESUMED, the log entry on symbols). Where a standard leaves a choice
or its wording is read in more than one way, the choice is a constant without a body.
-/

namespace Sys2Proof.Machine

/-- A byte of field data, or FNC1. -/
abbrev Datum := Option Byte

/-- Whether bytes are decimal digits. -/
def allDigits (bs : List Byte) : Bool := bs.all (fun b => decide (48 ≤ b.toNat ∧ b.toNat ≤ 57))

/-- The mod-10 check digit of digits, as GS1 element strings and EAN-13 have it. -/
def checkDigit (ds : List Byte) : Nat :=
  let sum := (ds.reverse.mapIdx (fun i b => (b.toNat - 48) * (if i % 2 = 0 then 3 else 1))).foldl (· + ·) 0
  (10 - sum % 10) % 10

/-- A number as `n` bits, the most significant first. -/
def bitsMsb (n v : Nat) : List Bool := (List.range n).map (fun i => v.testBit (n - 1 - i))

/-! ### Bar codes -/

/-- Modules of given widths, bars and spaces in turn. -/
def barRuns : Bool → List Nat → List Bool
  | _, [] => []
  | b, w :: ws => List.replicate w b ++ barRuns (!b) ws

/-- The decimal digits of a table entry of `n` widths. -/
def widthsOf (n v : Nat) : List Nat := (List.range n).map (fun i => v / 10 ^ (n - 1 - i) % 10)

/-- The widths of an EAN digit of number set A, space first; set B reverses them, set C has them with bars first. -/
def eanWidths (d : Nat) : List Nat := widthsOf 4 ([3211, 2221, 2122, 1411, 1132, 1231, 1114, 1312, 1213, 3112].getD d 0)

/-- Which of the six left digits are of set B, by the first digit; the leftmost is the most significant bit. -/
def eanParity (d : Nat) : List Bool := bitsMsb 6 ([0, 11, 13, 14, 19, 25, 28, 21, 22, 26].getD d 0)

/-- The 95 modules of an EAN-13 symbol of twelve digits and their check digit. -/
def eanModules (bs : List Byte) : List Bool :=
  let ds := (bs.take 12).map (fun b => b.toNat - 48) ++ [checkDigit (bs.take 12)]
  let left := ((ds.drop 1).take 6).zip (eanParity (ds.headD 0))
  [true, false, true] ++ left.flatMap (fun e => barRuns false (if e.2 then (eanWidths e.1).reverse else eanWidths e.1)) ++
    [false, true, false, true, false] ++ (ds.drop 7).flatMap (fun d => barRuns true (eanWidths d)) ++ [true, false, true]

/-- The widths of the Code 128 symbol characters, bar first, by their values. -/
def c128Widths : List Nat :=
  [212222, 222122, 222221, 121223, 121322, 131222, 122213, 122312, 132212, 221213, 221312, 231212, 112232, 122132, 122231, 113222, 123122,
   123221, 223211, 221132, 221231, 213212, 223112, 312131, 311222, 321122, 321221, 312212, 322112, 322211, 212123, 212321, 232121, 111323,
   131123, 131321] ++
  [112313, 132113, 132311, 211313, 231113, 231311, 112133, 112331, 132131, 113123, 113321, 133121, 313121, 211331, 231131, 213113, 213311,
   213131, 311123, 311321, 331121, 312113, 312311, 332111, 314111, 221411, 431111, 111224, 111422, 121124, 121421, 141122, 141221, 112214,
   112412, 122114] ++
  [122411, 142112, 142211, 241211, 221114, 413111, 241112, 134111, 111242, 121142, 121241, 114212, 124112, 124211, 411212, 421112, 421211,
   212141, 214121, 412121, 111143, 111341, 131141, 114113, 114311, 411113, 411311, 113141, 114131, 311141, 411131, 211412, 211214, 211232]

/-- The shortest characters for a suffix of the data from each code set, for the suffix after one byte more, that byte where it is a
digit, and how many data follow. -/
structure C128 where
  a    : Option (List Nat)
  b    : Option (List Nat)
  c    : Option (List Nat)
  next : Option (List Nat)
  dig  : Option Nat
  n    : Nat
  deriving DecidableEq, Repr

/-- The shorter of two ways; which of two that are as short the standard does not say. -/
def shorter (tie : Bool) (x y : Option (List Nat)) : Option (List Nat) :=
  match x, y with
  | none, _ => y
  | _, none => x
  | some u, some v => if u.length < v.length || (u.length == v.length && tie) then x else y

/-- One datum more in front: its character in each code set, with Shift or a change of set where that is shorter (R347: the shortest
switching). -/
def c128Step (d : Datum) (s : C128) : C128 :=
  let tie (i : Nat) : Bool := Config.codeTie (8 * s.n + i)
  let v := (d.getD 0).toNat
  let digit := match d with
    | some x => if allDigits [x] then some (v - 48) else none
    | none => none
  let chA := if v < 32 then v + 64 else v - 32
  let chB := v - 32
  let ea := match d with
    | none => s.a.map (102 :: ·)
    | some _ => if v < 96 then s.a.map (chA :: ·) else s.a.map (fun r => 98 :: chB :: r)
  let eb := match d with
    | none => s.b.map (102 :: ·)
    | some _ => if 32 ≤ v then s.b.map (chB :: ·) else s.b.map (fun r => 98 :: chA :: r)
  let ec := match d, digit, s.dig with
    | none, _, _ => s.c.map (102 :: ·)
    | some _, some x, some y => s.next.map (fun r => (10 * x + y) :: r)
    | _, _, _ => none
  { a := shorter (tie 0) ea (shorter (tie 1) (eb.map (100 :: ·)) (ec.map (99 :: ·)))
    b := shorter (tie 2) eb (shorter (tie 3) (ea.map (101 :: ·)) (ec.map (99 :: ·)))
    c := shorter (tie 4) ec (shorter (tie 5) (ea.map (101 :: ·)) (eb.map (100 :: ·)))
    next := s.c, dig := digit, n := s.n + 1 }

/-- The symbol characters of Code 128 data before the check character: start, data and switches. -/
def c128Codes (d : List Datum) : List Nat :=
  let r := d.foldr c128Step { a := some [], b := some [], c := some [], next := none, dig := none, n := 0 }
  (shorter (Config.codeTie (8 * r.n + 6)) (r.a.map (103 :: ·))
    (shorter (Config.codeTie (8 * r.n + 7)) (r.b.map (104 :: ·)) (r.c.map (105 :: ·)))).getD []

/-- The mod-103 check character. -/
def c128Check (codes : List Nat) : Nat := ((codes.drop 1).mapIdx (fun i c => (i + 1) * c)).foldl (· + ·) (codes.headD 0) % 103

/-- The modules of a Code 128 symbol: its characters, the check character and the stop character. -/
def c128Modules (d : List Datum) : List Bool :=
  let codes := c128Codes d
  (codes ++ [c128Check codes]).flatMap (fun c => barRuns true (widthsOf 6 (c128Widths.getD c 0))) ++ barRuns true [2, 3, 3, 1, 1, 1, 2]

/-! ### Reed-Solomon parity of the matrix symbols -/

/-- The product of x − r over roots r, the highest coefficient first. -/
def genPoly (mul : Byte → Byte → Byte) : List Byte → List Byte
  | [] => [1]
  | r :: rs =>
    let p := genPoly mul rs
    List.zipWith (· ^^^ ·) (p ++ [0]) (0 :: p.map (mul r))

/-- The first `n` powers of 2 from an exponent. -/
def powersFrom (mul : Byte → Byte → Byte) (first n : Nat) : List Byte :=
  (List.range n).map (fun k => (List.replicate (first + k) (2 : Byte)).foldl mul 1)

/-- The `n` parity codewords of data, with roots from an exponent. -/
def parity (mul : Byte → Byte → Byte) (first n : Nat) (data : List Byte) : List Byte :=
  let g := (genPoly mul (powersFrom mul first n)).drop 1
  data.foldl (fun rem d =>
    let lead := d ^^^ rem.headD 0
    List.zipWith (· ^^^ ·) (rem.drop 1 ++ [0]) (g.map (mul lead))) (List.replicate n 0)

/-! ### Data Matrix -/

/-- A Data Matrix size: rows, columns, data codewords, parity codewords, blocks, and regions across and along. -/
structure DmSize where
  rows   : Nat
  cols   : Nat
  data   : Nat
  ecc    : Nat
  blocks : Nat
  across : Nat
  along  : Nat
  deriving DecidableEq, Repr

/-- The sizes as ISO/IEC 16022 lists them, SIZE 1 first. -/
def dmSizes : List DmSize :=
  [⟨10, 10, 3, 5, 1, 1, 1⟩, ⟨12, 12, 5, 7, 1, 1, 1⟩, ⟨14, 14, 8, 10, 1, 1, 1⟩, ⟨16, 16, 12, 12, 1, 1, 1⟩, ⟨18, 18, 18, 14, 1, 1, 1⟩,
   ⟨20, 20, 22, 18, 1, 1, 1⟩, ⟨22, 22, 30, 20, 1, 1, 1⟩, ⟨24, 24, 36, 24, 1, 1, 1⟩, ⟨26, 26, 44, 28, 1, 1, 1⟩, ⟨32, 32, 62, 36, 1, 2, 2⟩,
   ⟨36, 36, 86, 42, 1, 2, 2⟩, ⟨40, 40, 114, 48, 1, 2, 2⟩, ⟨44, 44, 144, 56, 1, 2, 2⟩, ⟨48, 48, 174, 68, 1, 2, 2⟩,
   ⟨52, 52, 204, 84, 2, 2, 2⟩] ++
  [⟨64, 64, 280, 112, 2, 4, 4⟩, ⟨72, 72, 368, 144, 4, 4, 4⟩, ⟨80, 80, 456, 192, 4, 4, 4⟩, ⟨88, 88, 576, 224, 4, 4, 4⟩,
   ⟨96, 96, 696, 272, 4, 4, 4⟩, ⟨104, 104, 816, 336, 6, 4, 4⟩, ⟨120, 120, 1050, 408, 6, 6, 6⟩, ⟨132, 132, 1304, 496, 8, 6, 6⟩,
   ⟨144, 144, 1558, 620, 10, 6, 6⟩, ⟨8, 18, 5, 7, 1, 1, 1⟩, ⟨8, 32, 10, 11, 1, 2, 1⟩, ⟨12, 26, 16, 14, 1, 1, 1⟩,
   ⟨12, 36, 22, 18, 1, 2, 1⟩, ⟨16, 36, 32, 24, 1, 2, 1⟩, ⟨16, 48, 49, 28, 1, 2, 1⟩]

/-- A size by its SIZE. -/
def dmSize (size : Nat) : DmSize := dmSizes.getD (size - 1) ⟨10, 10, 3, 5, 1, 1, 1⟩

/-- The codewords of a datum that forms no digit pair: FNC1, a byte below 128, or Upper Shift and a byte from 128. -/
def dmOne : Datum → List Nat
  | none => [232]
  | some a => if a.toNat < 128 then [a.toNat + 1] else [235, a.toNat - 127]

/-- The codewords of ASCII encodation: digit pairs, Upper Shift and FNC1. -/
def dmCodes : List Datum → List Nat
  | [] => []
  | [d] => dmOne d
  | none :: rest => dmOne none ++ dmCodes rest
  | some a :: none :: rest => dmOne (some a) ++ (dmOne none ++ dmCodes rest)
  | some a :: some b :: rest =>
    if allDigits [a, b] then (130 + 10 * (a.toNat - 48) + (b.toNat - 48)) :: dmCodes rest else dmOne (some a) ++ dmCodes (some b :: rest)

/-- The codewords filled up to `n` with pads of the 253-state algorithm. -/
def dmPadded (n : Nat) (ws : List Nat) : List Nat :=
  ws ++ (List.range (n - ws.length)).map (fun i =>
    let v := 130 + 149 * (ws.length + i + 1) % 253
    if i = 0 then 129 else if 254 < v then v - 254 else v)

/-- Multiplication by x in the field of Data Matrix, of polynomial 0x12D. -/
def dmX (a : Byte) : Byte := if a.getLsbD 7 then (a <<< 1) ^^^ 0x2D else a <<< 1

/-- Multiplication over the low `n` bits of the second factor. -/
def dmMulAux : Nat → Byte → Byte → Byte
  | 0, _, _ => 0
  | n + 1, a, b => (if b.getLsbD 0 then a else 0) ^^^ dmMulAux n (dmX a) (b >>> 1)

/-- Multiplication in the field of Data Matrix. -/
def dmMul (a b : Byte) : Byte := dmMulAux 8 a b

/-- All codewords of a symbol: the data and the parity of its interleaved blocks. How the parity of the ten blocks of 144 by 144 is turned
against their data is read in two ways, so that the turn is open. -/
def dmAll (z : DmSize) (d : List Datum) : List Byte :=
  let data := (dmPadded z.data (dmCodes d)).map (BitVec.ofNat 8)
  let n := z.ecc / z.blocks
  let block (b : Nat) : List Byte := parity dmMul 1 n ((data.zipIdx.filter (fun e => e.2 % z.blocks == b)).map Prod.fst)
  let turn := if z.blocks = 10 then Config.dmTurn else 0
  let ps := (List.range z.blocks).map (fun b => block ((b + turn) % z.blocks))
  data ++ (List.range n).flatMap (fun j => ps.map (fun p => p.getD j 0))

/-- Places of the mapping matrix that are taken: row and column, with the codeword and its bit, bit 1 the most significant. -/
abbrev DmGrid := Tab (Nat × Nat)

/-- The key of a place. -/
def dmKey (r c : Nat) : Nat := 1000 * r + c

/-- A module of a codeword; places past the top or the left edge come in again at the other one. -/
def dmModule (nr nc : Nat) (chr bit : Nat) (r c : Int) : Nat × (Nat × Nat) :=
  let r1 := if r < 0 then r + nr else r
  let c1 := if r < 0 then c + 4 - ((nr + 4) % 8 : Nat) else c
  let r2 := if c1 < 0 then r1 + 4 - ((nc + 4) % 8 : Nat) else r1
  let c2 := if c1 < 0 then c1 + nc else c1
  (dmKey r2.toNat c2.toNat, (chr, bit))

/-- A codeword laid over eight places, the most significant bit first. -/
def dmLay (nr nc : Nat) (places : List (Int × Int)) (g : DmGrid × Nat) : DmGrid × Nat :=
  (places.mapIdx (fun i p => dmModule nr nc g.2 (i + 1) p.1 p.2) ++ g.1, g.2 + 1)

/-- A codeword in its usual shape with its last module at a place, where that place is inside and free. -/
def dmUtah (nr nc : Nat) (r c : Int) (g : DmGrid × Nat) : DmGrid × Nat :=
  if 0 ≤ r && decide (r < nr) && 0 ≤ c && decide (c < nc) && !tabHas g.1 (dmKey r.toNat c.toNat) then
    dmLay nr nc [(r - 2, c - 2), (r - 2, c - 1), (r - 1, c - 2), (r - 1, c - 1), (r - 1, c), (r, c - 2), (r, c - 1), (r, c)] g
  else g

/-- The four corner cases. -/
def dmCorner (nr nc : Nat) (r c : Int) (g : DmGrid × Nat) : DmGrid × Nat :=
  let R : Int := nr
  let C : Int := nc
  let right : List (Int × Int) := [(0, C - 2), (0, C - 1), (1, C - 1), (2, C - 1), (3, C - 1)]
  if r = R ∧ c = 0 then dmLay nr nc ([(R - 1, 0), (R - 1, 1), (R - 1, 2)] ++ right) g
  else if r = R - 2 ∧ c = 0 ∧ nc % 4 ≠ 0 then
    dmLay nr nc [(R - 3, 0), (R - 2, 0), (R - 1, 0), (0, C - 4), (0, C - 3), (0, C - 2), (0, C - 1), (1, C - 1)] g
  else if r = R - 2 ∧ c = 0 ∧ nc % 8 = 4 then dmLay nr nc ([(R - 3, 0), (R - 2, 0), (R - 1, 0)] ++ right) g
  else if r = R + 4 ∧ c = 2 ∧ nc % 8 = 0 then
    dmLay nr nc [(R - 1, 0), (R - 1, C - 1), (0, C - 3), (0, C - 2), (0, C - 1), (1, C - 3), (1, C - 2), (1, C - 1)] g
  else g

/-- Up and to the right in steps of two, as far as the matrix goes: where the walk ends. -/
def dmUp (nr nc : Nat) : Nat → Int → Int → DmGrid × Nat → Int × Int × (DmGrid × Nat)
  | 0, r, c, g => (r, c, g)
  | k + 1, r, c, g =>
    let g1 := dmUtah nr nc r c g
    if 0 ≤ r - 2 ∧ c + 2 < nc then dmUp nr nc k (r - 2) (c + 2) g1 else (r - 2, c + 2, g1)

/-- Down and to the left. -/
def dmDown (nr nc : Nat) : Nat → Int → Int → DmGrid × Nat → Int × Int × (DmGrid × Nat)
  | 0, r, c, g => (r, c, g)
  | k + 1, r, c, g =>
    let g1 := dmUtah nr nc r c g
    if r + 2 < nr ∧ 0 ≤ c - 2 then dmDown nr nc k (r + 2) (c - 2) g1 else (r + 2, c - 2, g1)

/-- The walk over the mapping matrix, diagonal by diagonal. -/
def dmWalk (nr nc : Nat) : Nat → Int → Int → DmGrid × Nat → DmGrid
  | 0, _, _, g => g.1
  | k + 1, r, c, g =>
    let u := dmUp nr nc (nr + nc) r c (dmCorner nr nc r c g)
    let d := dmDown nr nc (nr + nc) (u.1 + 1) (u.2.1 + 3) u.2.2
    if d.1 + 3 < nr ∨ d.2.1 + 1 < nc then dmWalk nr nc k (d.1 + 3) (d.2.1 + 1) d.2.2 else d.2.2.1

/-- The mapping matrix of a size. -/
def dmPlaces (nr nc : Nat) : DmGrid := dmWalk nr nc (nr + nc) 4 0 ([], 1)

/-- A module of a Data Matrix symbol: the edges of its region, or the mapping matrix; of a corner that no codeword takes two modules are
dark. -/
def dmBit (size : Nat) (d : List Datum) (x y : Nat) : Bool :=
  let z := dmSize size
  let w := z.cols / z.across
  let h := z.rows / z.along
  if x % w = 0 ∨ y % h = h - 1 then true
  else if y % h = 0 then x % w % 2 == 0
  else if x % w = w - 1 then y % h % 2 == 1
  else
    let nr := z.rows - 2 * z.along
    let nc := z.cols - 2 * z.across
    let r := y / h * (h - 2) + y % h - 1
    let c := x / w * (w - 2) + x % w - 1
    match tabFind (dmPlaces nr nc) (dmKey r c) with
    | some (chr, bit) => ((dmAll z d).getD (chr - 1) 0).getLsbD (8 - bit)
    | none => (r + 1 == nr && c + 1 == nc) || (r + 2 == nr && c + 2 == nc)

/-! ### QR Code: data -/

/-- The place of a byte among the 45 alphanumeric characters. -/
def alnumOf (b : Byte) : Option Nat :=
  let v := b.toNat
  if 48 ≤ v ∧ v ≤ 57 then some (v - 48)
  else if 65 ≤ v ∧ v ≤ 90 then some (v - 55)
  else ([32, 36, 37, 42, 43, 45, 46, 47, 58].findIdx? (· == v)).map (· + 36)

/-- Whether a mode can carry a datum: 1 numeric, 2 alphanumeric, 4 byte. FNC1 between elements is a percent sign or the byte 0x1D. -/
def qrCarries (mode : Nat) : Datum → Bool
  | none => mode == 2 || mode == 4
  | some b => mode == 4 || (mode == 1 && allDigits [b]) || (mode == 2 && (alnumOf b).isSome)

/-- The group of versions whose character counts have the same length: 1 to 9, 10 to 26, 27 to 40. -/
def qrGroup (v : Nat) : Nat := if v < 10 then 0 else if v < 27 then 1 else 2

/-- The bits of a character count. -/
def qrCountBits (g mode : Nat) : Nat :=
  if mode = 1 then 10 + 2 * g else if mode = 2 then 9 + 2 * g else if g = 0 then 8 else 16

/-- Data cut into segments of a mode and a length; none where a segment is empty, cannot be carried, or the lengths do not fit. -/
def qrCut (d : List Datum) : List (Nat × Nat) → Option (List (Nat × List Datum))
  | [] => if d.isEmpty then some [] else none
  | (mode, n) :: rest =>
    if n = 0 ∨ d.length < n ∨ (d.take n).all (qrCarries mode) = false then none
    else (qrCut (d.drop n) rest).map ((mode, d.take n) :: ·)

/-- The segments of data for a group of versions (R347: the standard's procedure). Data of digits, of alphanumeric characters without a
digit, or of bytes outside both is one segment; any other data is cut in a way that is open. -/
def qrSegments (g : Nat) (d : List Datum) : List (Nat × List Datum) :=
  if d.all (qrCarries 1) then [(1, d)]
  else if d.all (fun x => qrCarries 2 x && !qrCarries 1 x) then [(2, d)]
  else if d.all (fun x => !qrCarries 2 x) then [(4, d)]
  else (qrCut d (Config.qrSplit g d)).getD [(4, d)]

/-- Digits in threes of ten bits. -/
def numericBits : List Nat → List Bool
  | a :: b :: c :: rest => bitsMsb 10 (100 * a + 10 * b + c) ++ numericBits rest
  | [a, b] => bitsMsb 7 (10 * a + b)
  | [a] => bitsMsb 4 a
  | [] => []

/-- Alphanumeric characters in pairs of eleven bits. -/
def alnumBits : List Nat → List Bool
  | a :: b :: rest => bitsMsb 11 (45 * a + b) ++ alnumBits rest
  | [a] => bitsMsb 6 a
  | [] => []

/-- The bits of a segment: mode, character count and characters. In a GS1 symbol a percent sign among the data is doubled. -/
def qrSegmentBits (g : Nat) (gs1 : Bool) (s : Nat × List Datum) : List Bool :=
  let byte (x : Datum) : Byte := x.getD 0x1D
  let chars := s.2.flatMap (fun x => match x with
    | none => [38]
    | some b => let k := (alnumOf b).getD 0; if gs1 && k == 38 then [38, 38] else [k])
  let head (n : Nat) : List Bool := bitsMsb 4 s.1 ++ bitsMsb (qrCountBits g s.1) n
  if s.1 = 1 then head s.2.length ++ numericBits (s.2.map (fun x => (byte x).toNat - 48))
  else if s.1 = 2 then head chars.length ++ alnumBits chars
  else head s.2.length ++ s.2.flatMap (fun x => bitsMsb 8 (byte x).toNat)

/-- The bits of data: FNC1 in the first position as its mode, then the segments. -/
def qrBits (g : Nat) (gs1 : Bool) (d : List Datum) : List Bool :=
  (if gs1 then bitsMsb 4 5 else []) ++ (qrSegments g (if gs1 then d.drop 1 else d)).flatMap (qrSegmentBits g gs1)

/-! ### QR Code: codewords -/

/-- The parity codewords of a block, by level (L, M, Q, H) and version from 1. -/
def qrEcc : List (List Nat) :=
  [[7, 10, 15, 20, 26, 18, 20, 24, 30, 18, 20, 24, 26, 30, 22, 24, 28, 30, 28, 28, 28, 28, 30, 30, 26, 28, 30, 30, 30, 30, 30, 30, 30, 30,
    30, 30, 30, 30, 30, 30],
   [10, 16, 26, 18, 24, 16, 18, 22, 22, 26, 30, 22, 22, 24, 24, 28, 28, 26, 26, 26, 26, 28, 28, 28, 28, 28, 28, 28, 28, 28, 28, 28, 28, 28,
    28, 28, 28, 28, 28, 28],
   [13, 22, 18, 26, 18, 24, 18, 22, 20, 24, 28, 26, 24, 20, 30, 24, 28, 28, 26, 30, 28, 30, 30, 30, 30, 28, 30, 30, 30, 30, 30, 30, 30, 30,
    30, 30, 30, 30, 30, 30],
   [17, 28, 22, 16, 22, 28, 26, 26, 24, 28, 24, 28, 22, 24, 24, 30, 28, 28, 26, 28, 30, 24, 30, 30, 30, 30, 30, 30, 30, 30, 30, 30, 30, 30,
    30, 30, 30, 30, 30, 30]]

/-- The number of blocks, by level and version. -/
def qrBlocks : List (List Nat) :=
  [[1, 1, 1, 1, 1, 2, 2, 2, 2, 4, 4, 4, 4, 4, 6, 6, 6, 6, 7, 8, 8, 9, 9, 10, 12, 12, 12, 13, 14, 15, 16, 17, 18, 19, 19, 20, 21, 22, 24,
    25],
   [1, 1, 1, 2, 2, 4, 4, 4, 5, 5, 5, 8, 9, 9, 10, 10, 11, 13, 14, 16, 17, 17, 18, 20, 21, 23, 25, 26, 28, 29, 31, 33, 35, 37, 38, 40, 43,
    45, 47, 49],
   [1, 1, 2, 2, 4, 4, 6, 6, 8, 8, 8, 10, 12, 16, 12, 17, 16, 18, 21, 20, 23, 23, 25, 27, 29, 34, 34, 35, 38, 40, 43, 45, 48, 51, 53, 56,
    59, 62, 65, 68],
   [1, 1, 2, 4, 4, 4, 5, 6, 8, 8, 11, 11, 16, 16, 18, 16, 19, 21, 25, 25, 25, 34, 30, 32, 35, 37, 40, 42, 45, 48, 51, 54, 57, 60, 63, 66,
    70, 74, 77, 81]]

/-- The modules along an edge. -/
def qrEdge (v : Nat) : Nat := 17 + 4 * v

/-- The centres of alignment patterns along an axis. -/
def qrAligns (v : Nat) : List Nat :=
  if v < 2 then []
  else
    let n := v / 7 + 2
    let pitch := if v = 32 then 26 else (4 * v + 2 * n + 1) / (2 * n - 2) * 2
    6 :: (List.range (n - 1)).map (fun i => qrEdge v - 7 - i * pitch)

/-- The bits of the format information: level and mask with their ten parity bits, masked. -/
def qrFormat (level mask : Nat) : Nat :=
  let d := 8 * [1, 0, 3, 2].getD level 0 + mask
  let r := (List.range 10).foldl (fun r _ => (2 * r) ^^^ (if r.testBit 9 then 0x537 else 0)) d
  (1024 * d ||| r) ^^^ 0x5412

/-- The bits of the version information. -/
def qrVersionInfo (v : Nat) : Nat :=
  4096 * v ||| (List.range 12).foldl (fun r _ => (2 * r) ^^^ (if r.testBit 11 then 0x1F25 else 0)) v

/-- How far two numbers lie apart. -/
def apart (a b : Nat) : Nat := max a b - min a b

/-- A module that carries no data: finder patterns and their separators, alignment patterns, timing, format and version information. -/
def qrFixed (v level mask x y : Nat) : Option Bool :=
  let n := qrEdge v
  let near (c : Nat × Nat) : Nat := max (apart x c.1) (apart y c.2)
  let corners := [(3, 3), (n - 4, 3), (3, n - 4)]
  let al := qrAligns v
  let centres := (al.flatMap (fun a => al.map (fun b => (a, b)))).filter (fun c =>
    c != (6, 6) && c != (6, n - 7) && c != (n - 7, 6))
  let f (i : Nat) : Option Bool := some ((qrFormat level mask).testBit i)
  match corners.find? (fun c => decide (near c ≤ 4)), centres.find? (fun c => decide (near c ≤ 2)) with
  | some c, _ => some (near c != 2 && near c != 4)
  | none, some c => some (near c != 1)
  | none, none =>
    if y = 6 then some (x % 2 == 0)
    else if x = 6 then some (y % 2 == 0)
    else if x = 8 ∧ y < 9 then f (if y < 6 then y else y - 1)
    else if y = 8 ∧ x < 8 then f (if x = 7 then 8 else 14 - x)
    else if y = 8 ∧ n ≤ x + 8 then f (n - 1 - x)
    else if x = 8 ∧ y + 8 = n then some true
    else if x = 8 ∧ n < y + 8 then f (y + 15 - n)
    else if 7 ≤ v ∧ y < 6 ∧ n ≤ x + 11 ∧ x + 8 < n then some ((qrVersionInfo v).testBit (3 * y + (x + 11 - n)))
    else if 7 ≤ v ∧ x < 6 ∧ n ≤ y + 11 ∧ y + 8 < n then some ((qrVersionInfo v).testBit (3 * x + (y + 11 - n)))
    else none

/-- The modules in the order in which data is placed: two columns at a time from the right, up and down in turn. -/
def qrPath (v : Nat) : List (Nat × Nat) :=
  let n := qrEdge v
  ((List.range ((n - 1) / 2)).flatMap (fun k =>
    let right := if n ≤ 2 * k + 7 then n - 2 - 2 * k else n - 1 - 2 * k
    (List.range n).flatMap (fun i =>
      let y := if k % 2 = 0 then n - 1 - i else i
      [(right, y), (right - 1, y)]))).filter (fun p => (qrFixed v 0 0 p.1 p.2).isNone)

/-- The codewords that a version holds. -/
def qrWords (v : Nat) : Nat := (qrPath v).length / 8

/-- The data codewords that a version holds at a level. -/
def qrData (v level : Nat) : Nat :=
  qrWords v - ((qrEcc.getD level []).getD (v - 1) 0) * ((qrBlocks.getD level []).getD (v - 1) 1)

/-- Whether a version holds data at a level. -/
def qrFits (v level : Nat) (gs1 : Bool) (d : List Datum) : Bool := decide ((qrBits (qrGroup v) gs1 d).length ≤ 8 * qrData v level)

/-- The smallest version that holds data at a level (R347). -/
def qrLeast (level : Nat) (gs1 : Bool) (d : List Datum) : Option Nat :=
  ((List.range 40).map (· + 1)).find? (fun v => qrFits v level gs1 d)

/-- Bits as bytes, the first bit the most significant. -/
def bytesMsb : Nat → List Bool → List Byte
  | 0, _ => []
  | n + 1, bs => BitVec.ofNat 8 ((bs.take 8).foldl (fun a b => 2 * a + b2n b) 0) :: bytesMsb n (bs.drop 8)

/-- The data codewords: the bits, a terminator of up to four, zeros to a whole codeword, and pads in turn. -/
def qrDataWords (v level : Nat) (gs1 : Bool) (d : List Datum) : List Byte :=
  let n := qrData v level
  let bs := qrBits (qrGroup v) gs1 d
  let b1 := bs ++ List.replicate (min 4 (8 * n - bs.length)) false
  let b2 := b1 ++ List.replicate ((8 - b1.length % 8) % 8) false
  bytesMsb (b2.length / 8) b2 ++ (List.range (n - b2.length / 8)).map (fun i => if i % 2 = 0 then 0xEC else 0x11)

/-- The codewords of a symbol in the order in which they are placed: the blocks' data codewords in turn, then their parity. The blocks that
come last hold one data codeword more where they do not divide evenly. -/
def qrAll (v level : Nat) (gs1 : Bool) (d : List Datum) : List Byte :=
  let data := qrDataWords v level gs1 d
  let k := (qrBlocks.getD level []).getD (v - 1) 1
  let e := (qrEcc.getD level []).getD (v - 1) 0
  let short := data.length / k
  let few := k - data.length % k
  let block (b : Nat) : List Byte := (data.drop (b * short + (b - few))).take (short + b2n (decide (few ≤ b)))
  let blocks := (List.range k).map block
  let pars := blocks.map (parity gfMul 0 e)
  let turn (n : Nat) (xs : List (List Byte)) : List Byte := (List.range n).flatMap (fun j => xs.filterMap (fun b => b[j]?))
  turn (short + 1) blocks ++ turn e pars

/-! ### QR Code: masks -/

/-- Whether a mask turns a module. -/
def qrMask (mask x y : Nat) : Bool :=
  match mask with
  | 0 => (x + y) % 2 == 0
  | 1 => y % 2 == 0
  | 2 => x % 3 == 0
  | 3 => (x + y) % 3 == 0
  | 4 => (x / 3 + y / 2) % 2 == 0
  | 5 => x * y % 2 + x * y % 3 == 0
  | 6 => (x * y % 2 + x * y % 3) % 2 == 0
  | _ => ((x + y) % 2 + x * y % 3) % 2 == 0

/-- The rows of a symbol under a mask. -/
def qrRows (v level mask : Nat) (words : List Byte) : List (List Bool) :=
  let n := qrEdge v
  let path := qrPath v
  let placed : Tab Bool := path.zipIdx.map (fun e => (dmKey e.1.2 e.1.1, (words.getD (e.2 / 8) 0).getLsbD (7 - e.2 % 8)))
  (List.range n).map (fun y => (List.range n).map (fun x =>
    (qrFixed v level mask x y).getD (tabGet false placed (dmKey y x) != qrMask mask x y)))

/-- The runs of a line: colour and length. -/
def lineRuns : List Bool → List (Bool × Nat)
  | [] => []
  | b :: rest =>
    match lineRuns rest with
    | (c, n) :: more => if b == c then (c, n + 1) :: more else (b, 1) :: (c, n) :: more
    | [] => [(b, 1)]

/-- The points of a line for patterns like a finder's, 1 : 1 : 3 : 1 : 1 with four light modules beside them. Whether the quiet zone counts
as light, whether both sides count, and whether a pattern of wider modules counts, is read in more than one way. -/
def finderPoints (runs : List (Bool × Nat)) : Nat :=
  let padded := if Config.maskReading 0 then (false, 1000) :: runs ++ [(false, 1000)] else runs
  let light (u : Nat) (r : Option (Bool × Nat)) : Nat := b2n (r.any (fun e => !e.1 && decide (4 * u ≤ e.2)))
  (List.range padded.length).foldl (fun s i =>
    match padded.drop i with
    | (true, u) :: (false, b) :: (true, c) :: (false, d) :: (true, e) :: _ =>
      if b = u ∧ c = 3 * u ∧ d = u ∧ e = u ∧ (u = 1 ∨ Config.maskReading 2 = true) then
        let sides := light u (if i = 0 then none else padded[i - 1]?) + light u padded[i + 5]?
        s + 40 * (if Config.maskReading 1 then sides else min 1 sides)
      else s
    | _ => s) 0

/-- The points of a symbol: runs of five and more of a colour, blocks of two by two, patterns like a finder's, and how far the dark modules
lie from half. -/
def qrPoints (rows : List (List Bool)) : Nat :=
  let n := rows.length
  let cols := (List.range n).map (fun x => rows.map (fun r => r.getD x false))
  let lines := (rows ++ cols).map lineRuns
  let sum (xs : List Nat) : Nat := xs.foldl (· + ·) 0
  let long := sum (lines.map (fun l => sum (l.map (fun e => if 5 ≤ e.2 then e.2 - 2 else 0))))
  let at_ (y x : Nat) : Bool := (rows.getD y []).getD x false
  let blocks := sum ((List.range (n - 1)).map (fun y => ((List.range (n - 1)).filter (fun x =>
    at_ y x == at_ y (x + 1) && at_ y x == at_ (y + 1) x && at_ y x == at_ (y + 1) (x + 1))).length))
  let dark := sum (rows.map (fun r => (r.filter id).length))
  let off := apart (20 * dark) (10 * n * n)
  let steps := if Config.maskReading 3 then off / (n * n) else (off + n * n - 1) / (n * n) - 1
  long + 3 * blocks + sum (lines.map finderPoints) + 10 * steps

/-- The mask of a symbol (R347: the standard's procedure): one with the fewest points; of several the standard does not say which. -/
def qrChosen (v level : Nat) (words : List Byte) : Nat :=
  let pts := (List.range 8).map (fun k => qrPoints (qrRows v level k words))
  let best := (List.range 8).filter (fun k => pts.all (fun p => decide (pts.getD k 0 ≤ p)))
  best.getD (Config.maskTie % best.length) 0

/-- A module of a QR Code symbol. -/
def qrBit (v level : Nat) (gs1 : Bool) (d : List Datum) (x y : Nat) : Bool :=
  let words := qrAll v level gs1 d
  ((qrRows v level (qrChosen v level words) words).getD y []).getD x false

/-! ### All symbols -/

/-- A module of a symbol without its quiet zone: type, size or version, error correction level, GS1, data, and module across and along
(R347). -/
def symbolBit (ty size level : Nat) (gs1 : Bool) (d : List Datum) (x y : Nat) : Bool :=
  match ty with
  | 2 => dmBit size d x y
  | 3 => qrBit size level gs1 d x y
  | 4 => (c128Modules d).getD x false
  | _ => (eanModules (d.filterMap id)).getD x false

end Sys2Proof.Machine
end

