-- ==== Sys2Proof/Machine/Templates.lean ====
section
/-!
DEFINITION. Template sets, glyph stores and field data as functions of their bytes (R336 to R348): the checks of TPL_LOAD and
GLYPH_LOAD, dates and shifts, GS1 element strings, how large a field's content is, its bitplane, and the overlay.
-/

namespace Sys2Proof.Machine

/-! ### Template sets (R337 to R341) -/

/-- LAYOUTS. -/
def tplLayouts (t : List Byte) : Nat := numAt t 6 1
/-- TEMPLATES. -/
def tplTemplates (t : List Byte) : Nat := numAt t 7 1
/-- FIELDS. -/
def tplFields (t : List Byte) : Nat := numAt t 8 2
/-- SEGMENTS. -/
def tplSegments (t : List Byte) : Nat := numAt t 10 2
/-- TOTAL_BYTES. -/
def tplTotal (t : List Byte) : Nat := numAt t 12 4
/-- Offset of an entry of the layout directory. -/
def layoutAt (t : List Byte) (i : Nat) : Nat := numAt t 16 4 + 8 * i
/-- Offset of an entry of the template directory. -/
def templateAt (t : List Byte) (i : Nat) : Nat := numAt t 20 4 + 8 * i
/-- Offset of a field descriptor. -/
def fieldAt (t : List Byte) (i : Nat) : Nat := numAt t 24 4 + 32 * i
/-- Offset of a data segment. -/
def segmentAt (t : List Byte) (i : Nat) : Nat := numAt t 28 4 + 8 * i
/-- PANELS of a layout. -/
def layoutPanels (t : List Byte) (i : Nat) : Nat := numAt t (layoutAt t i + 4) 1
/-- Offset of a panel entry of a layout. -/
def panelAt (t : List Byte) (i k : Nat) : Nat := numAt t (layoutAt t i) 4 + 16 * k
/-- The field descriptors' indexes of a template. -/
def templateFields (t : List Byte) (i : Nat) : List Nat :=
  (List.range (numAt t (templateAt t i + 2) 1)).map (· + numAt t (templateAt t i) 2)
/-- The segment indexes of a field. -/
def fieldSegs (t : List Byte) (f : Nat) : List Nat :=
  (List.range (numAt t (fieldAt t f + 30) 1)).map (· + numAt t (fieldAt t f + 28) 2)
/-- TYPE of a field. -/
def fieldType (t : List Byte) (f : Nat) : Nat := numAt t (fieldAt t f) 1
/-- STATIONS of a field. -/
def fieldStations (t : List Byte) (f : Nat) : Nat := numAt t (fieldAt t f + 2) 1
/-- The GS1 flag. -/
def fieldGs1 (t : List Byte) (f : Nat) : Bool := hasBit (numAt t (fieldAt t f + 3) 1) 2
/-- Box origin across. -/
def fieldX (t : List Byte) (f : Nat) : Nat := numAt t (fieldAt t f + 4) 2
/-- BOX_W. -/
def fieldW (t : List Byte) (f : Nat) : Nat := numAt t (fieldAt t f + 6) 2
/-- Box origin along. -/
def fieldY (t : List Byte) (f : Nat) : Nat := numAt t (fieldAt t f + 8) 4
/-- BOX_H. -/
def fieldH (t : List Byte) (f : Nat) : Nat := numAt t (fieldAt t f + 12) 2
/-- Whether a field is a Data Matrix, QR, Code 128 or EAN-13 symbol. -/
def isSymbol (ty : Nat) : Bool := decide (2 ≤ ty ∧ ty ≤ 5)
/-- KIND of a segment. -/
def segKind (t : List Byte) (g : Nat) : Nat := numAt t (segmentAt t g) 1

/-- The counters that a template names, in field and segment order. -/
def templateCounters (t : List Byte) (i : Nat) : List Nat :=
  ((templateFields t i).flatMap (fun f => ((fieldSegs t f).filter (fun g => segKind t g == 2)).map
    (fun g => numAt t (segmentAt t g + 1) 1))).eraseDups

/-- The checks of the header: each failing condition with the offset of its first byte. -/
def headerChecks (t : List Byte) : List (Bool × Nat) :=
  let total := tplTotal t
  let shift (i : Nat) : Nat := numAt t (40 + 2 * i) 2
  let past (off n : Nat) : Bool := decide (total < numAt t off 4 + n)
  [(numAt t 0 4 != 0x54535043, 0), (numAt t 4 2 != 1, 4), (tplLayouts t == 0 || decide (64 < tplLayouts t), 6),
    (tplTemplates t == 0 || decide (64 < tplTemplates t), 7), (tplFields t == 0 || decide (2048 < tplFields t), 8),
    (decide (8192 < tplSegments t), 10), (decide (total < 64 ∨ 1048576 < total) || total != t.length, 12),
    (past 16 (8 * tplLayouts t), 16), (past 20 (8 * tplTemplates t), 20), (past 24 (32 * tplFields t), 24),
    (past 28 (8 * tplSegments t), 28), (past 32 0, 32),
    (decide (intAt t 36 2 < -720 ∨ 840 < intAt t 36 2), 36), (decide (1439 < numAt t 38 2), 38),
    (decide (1439 < shift 0), 40)] ++
  ([1, 2, 3].map (fun i => (shift i != 0xFFFF && (decide (1439 < shift i) || decide (shift i ≤ shift (i - 1))), 40 + 2 * i))) ++
  [(numAt t 48 12 != 0, 48), (wordAt t 60 != crc32c (t.take 60 ++ (t.drop 64).take (total - 64)), 60)]

/-- The checks of a layout and its panels (R338, R336). -/
def layoutChecks (t : List Byte) (i : Nat) : List (Bool × Nat) :=
  let e := layoutAt t i
  let n := layoutPanels t i
  [(decide (tplTotal t < numAt t e 4 + 16 * n), e), (n == 0 || decide (64 < n), e + 4), (numAt t (e + 5) 3 != 0, e + 5)] ++
  ((List.range n).flatMap (fun k =>
    let p := panelAt t i k
    let x := numAt t p 2
    let tp := numAt t (p + 2) 2
    let wide := tp != 0xFFFF && decide (tp < tplTemplates t) &&
      (templateFields t tp).any (fun f => decide (24566 < x + fieldX t f + fieldW t f - 1))
    [(decide (24566 < x) || wide, p), (tp != 0xFFFF && decide (tplTemplates t ≤ tp), p + 2), (numAt t (p + 8) 4 == 0, p + 8),
      (decide (7 < numAt t (p + 12) 1) && numAt t (p + 12) 1 != 0xFF, p + 12), (decide (1 < numAt t (p + 13) 1), p + 13),
      (numAt t (p + 14) 2 != 0, p + 14)]))

/-- The checks of a template (R339, R351). -/
def templateChecks (t : List Byte) (i : Nat) : List (Bool × Nat) :=
  let e := templateAt t i
  let n := numAt t (e + 2) 1
  [(decide (tplFields t < numAt t e 2 + n) || decide (2 < (templateCounters t i).length), e), (n == 0 || decide (32 < n), e + 2),
    (numAt t (e + 3) 5 != 0, e + 3)]

/-- The checks of a field descriptor (R340, R345). -/
def fieldChecks (t : List Byte) (f : Nat) : List (Bool × Nat) :=
  let e := fieldAt t f
  let by1 (o : Nat) : Nat := numAt t (e + o) 1
  let ty := by1 0
  let bar := ty == 4 || ty == 5
  let segs := by1 30
  let first := numAt t (e + 28) 2
  [(ty == 0 || decide (6 < ty), e), (decide (2 < by1 1), e + 1), (decide (64 ≤ by1 2), e + 2), (decide (8 ≤ by1 3), e + 3),
    (fieldW t f == 0 || decide (8192 < fieldW t f), e + 6), (fieldH t f == 0 || decide (8192 < fieldH t f), e + 12),
    (decide (3 < by1 16), e + 16), (if ty = 1 then decide (15 < by1 17) else by1 17 != 0, e + 17), (decide (2 < by1 18), e + 18),
    (if isSymbol ty then by1 19 == 0 || decide (64 < by1 19) else by1 19 != 0, e + 19),
    (if ty = 2 then decide (30 < by1 20) else if ty = 3 then decide (40 < by1 20) else by1 20 != 0, e + 20),
    (if ty = 3 then decide (3 < by1 21) else by1 21 != 0, e + 21), (decide (15 < by1 22), e + 22), (by1 23 != 0, e + 23),
    (let h := numAt t (e + 24) 2; if bar then h == 0 || decide (8192 < h) else h != 0, e + 24),
    (ty != 1 && numAt t (e + 26) 2 != 0, e + 26),
    (decide (tplSegments t < first + segs) || (fieldGs1 t f && segs != 0 && segKind t first != 6), e + 28),
    (if ty = 6 then segs != 0 else segs == 0 || decide (16 < segs), e + 30), (by1 31 != 0, e + 31)]

/-- The checks of a data segment (R341, R344). -/
def segmentChecks (t : List Byte) (g : Nat) : List (Bool × Nat) :=
  let e := segmentAt t g
  let k := numAt t e 1
  let p1 := numAt t (e + 1) 1
  let p2 := numAt t (e + 2) 2
  let p3 := numAt t (e + 4) 4
  let pool := numAt t 32 4
  [(k == 0 || decide (6 < k), e),
    (if k = 1 then p1 != 0 else if k = 2 then decide (63 < p1) else if k = 3 then p1 == 0 || decide (10 < p1)
     else if k = 4 then decide (15 < p1) else if k = 5 then decide (7 < p1) else decide (1 < p1), e + 1),
    (if k = 1 then p2 == 0 || decide (255 < p2)
     else if k = 2 then p2 % 32 == 0 || decide (20 < p2 % 32) || p2 / 32 % 4 != 0 || decide (256 ≤ p2)
     else if k = 6 then decide (9999 < p2) else if k = 3 then false else p2 != 0, e + 2),
    (if k = 1 then decide (tplTotal t < pool + p3 + p2) else if k = 3 then decide (1 < p3)
     else if k = 6 then decide (p3 < 2 ∨ 4 < p3) else p3 != 0, e + 4)]

/-- The offset of the first bad byte of a template set (R336), where it has one. Directories are checked only in a set whose
header is sound. -/
def tplBad (t : List Byte) : Option Nat :=
  let bad (xs : List (Bool × Nat)) : List Nat := (xs.filter (fun x => x.1)).map Prod.snd
  let h := bad (headerChecks t)
  let rest := if h.isEmpty then
      bad ((List.range (tplLayouts t)).flatMap (layoutChecks t) ++ (List.range (tplTemplates t)).flatMap (templateChecks t) ++
        (List.range (tplFields t)).flatMap (fieldChecks t) ++ (List.range (tplSegments t)).flatMap (segmentChecks t))
    else h
  rest.foldl (fun b x => match b with
    | none => some x
    | some y => some (min x y)) none

/-- The glyph stores that a set's TEXT fields name. -/
def tplStores (t : List Byte) : List Nat :=
  (((List.range (tplFields t)).filter (fun f => fieldType t f == 1)).map (fun f => numAt t (fieldAt t f + 17) 1)).eraseDups

/-- The cost of a template (R356). -/
def templateCost (t : List Byte) (i : Nat) : Nat :=
  let fs := templateFields t i
  let area := fs.foldl (fun a f => a + fieldW t f * fieldH t f) 0
  let syms := (fs.filter (fun f => fieldType t f == 2 || fieldType t f == 3)).length
  max 1 (max (ceilDiv area 4194304) (ceilDiv syms 2))

/-! ### Glyph stores (R346) -/

/-- The first bad byte of a glyph store. -/
def glyphBad (g : List Byte) : Option Nat :=
  let h := numAt g 4 2
  let n := numAt g 8 4
  let idx := ((List.range 256).zip (chunks 8 256 (g.drop 16))).map (fun e =>
    (decide (n < numAt e.2 4 4 + h * ceilDiv (numAt e.2 0 2) 8) && numAt e.2 0 2 != 0, 16 + 8 * e.1))
  (([(numAt g 0 4 != 0x4C594757, 0), (h == 0 || decide (1024 < h), 4), (numAt g 6 2 != 0, 6),
    (decide (n < 2064 ∨ 2097152 < n) || n != g.length, 8), (wordAt g 12 != crc32c ((g.drop 16).take (n - 16)), 12)] ++
    idx).find? (fun (x : Bool × Nat) => x.1)).map Prod.snd

/-- WIDTH of a glyph. -/
def glyphW (g : List Byte) (c : Byte) : Nat := numAt g (16 + 8 * c.toNat) 2
/-- ADVANCE of a glyph. -/
def glyphAdv (g : List Byte) (c : Byte) : Nat := numAt g (18 + 8 * c.toNat) 2
/-- A bit of a glyph. -/
def glyphBit (g : List Byte) (c : Byte) (x y : Nat) : Bool :=
  decide (x < glyphW g c) && decide (y < numAt g 4 2) &&
    hasBit (numAt g (numAt g (20 + 8 * c.toNat) 4 + y * ceilDiv (glyphW g c) 8 + x / 8) 1) (7 - x % 8)

/-! ### Dates (R343, R344) -/

/-- The civil date of a day counted from 1970-01-01: year, month, day. -/
def civil (days : Int) : Int × Nat × Nat :=
  let z := days + 719468
  let era := z / 146097
  let doe := (z - era * 146097).toNat
  let yoe := (doe - doe / 1460 + doe / 36524 - doe / 146096) / 365
  let doy := doe - (365 * yoe + yoe / 4 - yoe / 100)
  let mp := (5 * doy + 2) / 153
  let d := doy - (153 * mp + 2) / 5 + 1
  let mo := if mp < 10 then mp + 3 else mp - 9
  (era * 400 + (yoe : Int) + (if mo ≤ 2 then 1 else 0), mo, d)

/-- The day of a civil date. -/
def dayOf (y : Int) (mo d : Nat) : Int :=
  let y1 := if mo ≤ 2 then y - 1 else y
  let era := y1 / 400
  let yoe := (y1 - era * 400).toNat
  let doy := (153 * (if 2 < mo then mo - 3 else mo + 9) + 2) / 5 + d - 1
  era * 146097 + ((yoe * 365 + yoe / 4 - yoe / 100 + doy : Nat) : Int) - 719468

/-- The decimal digits of a number, newest first. -/
def digitsAux : Nat → Nat → List Byte
  | 0, _ => []
  | fuel + 1, n => BitVec.ofNat 8 (48 + n % 10) :: (if n < 10 then [] else digitsAux fuel (n / 10))

/-- A number in decimal, with leading zeros up to a width. -/
def decimal (width n : Nat) : List Byte :=
  let ds := (digitsAux 21 n).reverse
  List.replicate (width - ds.length) 0x30 ++ ds

/-- ASCII bytes. -/
def ascii (s : String) : List Byte := s.toList.map (fun c => BitVec.ofNat 8 c.toNat)

/-- The names of the months. -/
def monthNames : List String := ["JAN", "FEB", "MAR", "APR", "MAY", "JUN", "JUL", "AUG", "SEP", "OCT", "NOV", "DEC"]

/-- The ISO 8601 week-numbering year and week of a day. -/
def isoWeek (day : Int) : Int × Nat :=
  let thursday := day - (day + 3) % 7 + 3
  let y := (civil thursday).1
  (y, ((thursday - dayOf y 1 1) / 7).toNat + 1)

/-- The shift at a local minute of day: the last start at or before it, or the last used entry (R343). -/
def shiftAt (t : List Byte) (minute : Nat) : Nat :=
  let used := (List.range 4).filter (fun i => numAt t (40 + 2 * i) 2 != 0xFFFF)
  match (used.filter (fun i => decide (numAt t (40 + 2 * i) 2 ≤ minute))).getLast? with
  | some i => i + 1
  | none => ((used.getLast?).getD 0) + 1

/-- The output of a DATE segment for a hit at a UTC time in µs (R343, R344). -/
def dateText (t : List Byte) (time : Nat) (fmt : Nat) (offset : Int) (calendar : Bool) : List Byte :=
  let local_ : Int := (time : Int) / 60000000 + intAt t 36 2
  let start : Int := if calendar then 0 else (numAt t 38 2 : Int)
  let day := (local_ - start) / 1440 + offset
  let minute := (local_ % 1440).toNat
  let c := civil day
  let yy := (c.1 % 100).toNat
  let doy := (day - dayOf c.1 1 1).toNat + 1
  let w := isoWeek day
  match fmt with
  | 1 => decimal 2 yy ++ decimal 2 c.2.1 ++ decimal 2 c.2.2
  | 2 => decimal 4 c.1.toNat ++ decimal 2 c.2.1 ++ decimal 2 c.2.2
  | 3 => decimal 2 c.2.2 ++ decimal 2 c.2.1 ++ decimal 2 yy
  | 4 => decimal 1 (yy % 10) ++ decimal 3 doy
  | 5 => decimal 2 yy ++ decimal 3 doy
  | 6 => decimal 2 (minute / 60) ++ decimal 2 (minute % 60)
  | 7 => decimal 1 (shiftAt t minute)
  | 8 => decimal 2 (w.1 % 100).toNat ++ decimal 2 w.2
  | 9 => decimal 2 c.2.2 ++ ascii "." ++ decimal 2 c.2.1 ++ ascii "." ++ decimal 4 c.1.toNat
  | _ => decimal 2 c.2.2 ++ ascii (monthNames.getD (c.2.1 - 1) "") ++ decimal 2 yy

/-! ### Field data (R341, R342, R345) -/

/-- What is fixed at the hit for a panel: counter values, lot texts, the date source, and the items of its feed entry. -/
structure Fixed where
  values : List (Nat × Nat)
  lots   : Tab (List Byte)
  time   : Nat
  items  : Option (List (List Byte))
  deriving DecidableEq, Repr

/-- Why a field fails (R361). -/
inductive FieldFail where
  | data
  | overflow
  | feed
  | memory
  deriving DecidableEq, Repr

/-- What a segment other than AI produces. -/
def segText (t : List Byte) (x : Fixed) (g : Nat) : Except FieldFail (List Byte) :=
  let e := segmentAt t g
  let p1 := numAt t (e + 1) 1
  let p2 := numAt t (e + 2) 2
  let p3 := numAt t (e + 4) 4
  match numAt t e 1 with
  | 1 => .ok (bytesAt t (numAt t 32 4 + p3) p2)
  | 2 =>
    let v := ((x.values.find? (fun c => c.1 == p1)).map Prod.snd).getD 0
    let d := p2 % 32
    if 10 ^ d ≤ v then .error .data else .ok (decimal (if hasBit p2 7 then d else 1) v)
  | 3 => .ok (dateText t x.time p1 (signedOf 16 p2) (hasBit p3 0))
  | 4 => .ok (tabGet [] x.lots p1)
  | 5 =>
    match x.items with
    | none => .error .feed
    | some items => if p1 < items.length then .ok (items.getD p1 []) else .error .data
  | _ => .ok []

/-- The length of an element of predefined length less its first two digits, by these two digits, as the GS1 General
Specifications list them; their table is not in the spec, and what it gives for 23 is left open. -/
def aiFixed (two : Nat) : Option Nat :=
  if two = 0 then some 18
  else if two = 1 ∨ two = 2 ∨ two = 3 then some 14
  else if two = 4 then some 16
  else if 11 ≤ two ∧ two ≤ 19 then some 6
  else if two = 20 then some 2
  else if two = 23 then some Config.ai23
  else if 31 ≤ two ∧ two ≤ 36 then some 8
  else if two = 41 then some 14
  else none

/-- The elements of a GS1 field: the AI segment with the segments that follow it. -/
def gs1Elements (t : List Byte) : List Nat → List (Nat × List Nat)
  | [] => []
  | g :: gs =>
    match gs1Elements t gs with
    | (a, body) :: rest =>
      if segKind t g = 6 then (if segKind t a = 6 then (g, []) :: (a, body) :: rest else (g, a :: body) :: rest)
      else if segKind t a = 6 then (g, []) :: (a, body) :: rest
      else (g, a :: body) :: rest
    | [] => [(g, [])]

/-- Concatenate what segments produce. -/
def segsText (t : List Byte) (x : Fixed) (gs : List Nat) : Except FieldFail (List Byte) :=
  gs.foldl (fun acc g => match acc, segText t x g with
    | .ok a, .ok b => .ok (a ++ b)
    | .error e, _ => .error e
    | .ok _, .error e => .error e) (.ok [])

/-- One GS1 element (R345): its bytes and whether it is of predefined length. -/
def gs1Element (t : List Byte) (x : Fixed) (el : Nat × List Nat) : Except FieldFail (List Byte × Bool) :=
  let e := segmentAt t el.1
  let digits := numAt t (e + 4) 4
  let ai := decimal digits (numAt t (e + 2) 2)
  match segsText t x el.2 with
  | .error f => .error f
  | .ok d =>
    let data := if hasBit (numAt t (e + 1) 1) 0 then d ++ decimal 1 (checkDigit d) else d
    let two := ((ai.getD 0 0).toNat - 48) * 10 + ((ai.getD 1 0).toNat - 48)
    match aiFixed two with
    | some n => if data.length + digits = n + 2 ∧ allDigits data then .ok (ai ++ data, true) else .error .data
    | none => .ok (ai ++ data, false)

/-- The elements in order, or the first failure. -/
def gs1All (t : List Byte) (x : Fixed) : List (Nat × List Nat) → Except FieldFail (List (List Byte × Bool))
  | [] => .ok []
  | el :: els =>
    match gs1Element t x el with
    | .error e => .error e
    | .ok b =>
      match gs1All t x els with
      | .error e => .error e
      | .ok bs => .ok (b :: bs)

/-- Join the elements, with FNC1 first and after each element of open length but the last. -/
def gs1Join : List (List Byte × Bool) → List Datum
  | [] => []
  | [e] => e.1.map some
  | e :: rest => e.1.map some ++ (if e.2 then [] else [none]) ++ gs1Join rest

/-- A field's data (R341, R345): at most 3 116 bytes. -/
def fieldData (t : List Byte) (x : Fixed) (f : Nat) : Except FieldFail (List Datum) :=
  let gs := fieldSegs t f
  let whole : Except FieldFail (List Datum) :=
    if fieldGs1 t f then
      match gs1All t x (gs1Elements t gs) with
      | .ok els => .ok (none :: gs1Join els)
      | .error e => .error e
    else match segsText t x gs with
      | .ok d => .ok (d.map some)
      | .error e => .error e
  match whole with
  | .ok d => if 3116 < d.length then .error .data else .ok d
  | .error e => .error e

/-! ### How large a field's content is (R340, R346, R347) -/

/-- The modules of a field's symbol, across and along, and its size or version; bars count 1 along. -/
def symbolSize (t : List Byte) (f : Nat) (d : List Datum) : Except FieldFail (Nat × Nat × Nat) :=
  let e := fieldAt t f
  let size := numAt t (e + 20) 1
  let bytes := d.filterMap id
  match fieldType t f with
  | 2 =>
    let n := (dmCodes d).length
    let i := if size = 0 then ((dmSizes.take 24).findIdx? (fun z => decide (n ≤ z.data))).map (· + 1)
             else if n ≤ (dmSize size).data then some size else none
    match i with
    | some k => .ok ((dmSize k).cols, (dmSize k).rows, k)
    | none => .error .overflow
  | 3 =>
    let level := numAt t (e + 21) 1
    match if size = 0 then qrLeast level (fieldGs1 t f) d else if size ≤ 40 ∧ qrFits size level (fieldGs1 t f) d then some size else none with
    | none => .error .overflow
    | some v => .ok (qrEdge v, qrEdge v, v)
  | 4 =>
    if bytes.any (fun b => decide (128 ≤ b.toNat)) then .error .data
    else if (if fieldGs1 t f then 48 else 80) < bytes.length then .error .overflow
    else .ok (11 * ((c128Codes d).length + 1) + 13, 1, 0)
  | _ =>
    if !allDigits bytes || bytes.length != d.length then .error .data
    else if bytes.length = 12 then .ok (95, 1, 0)
    else if bytes.length = 13 then
      if decimal 1 (checkDigit (bytes.take 12)) = bytes.drop 12 then .ok (95, 1, 0) else .error .data
    else if 13 < bytes.length then .error .overflow
    else .error .data

/-- QUIET raised to the symbology's minimum (R340). -/
def quietZone (ty quiet : Nat) : Nat :=
  max quiet (match ty with
    | 2 => 1
    | 3 => 4
    | 4 => 10
    | _ => 11)

/-- Where each glyph of a text starts. -/
def glyphPlaces (g : List Byte) (pitch : Int) : Int → List Byte → List (Int × Byte)
  | _, [] => []
  | x, c :: cs => (x, c) :: glyphPlaces g pitch (x + (glyphAdv g c : Int) + pitch) cs

/-- What a field shows once composed: its data, and the extent of its content before rotation. -/
structure Content where
  data : List Datum
  w    : Nat
  h    : Nat
  size : Nat
  deriving DecidableEq, Repr

/-- Compose a field (R340, R346, R347, R361): its content, or why it fails. -/
def composeField (t : List Byte) (store : List Byte) (x : Fixed) (f : Nat) : Except FieldFail Content :=
  let e := fieldAt t f
  let ty := fieldType t f
  let turned := numAt t (e + 3) 1 % 2 = 1
  let fits (c : Content) : Except FieldFail Content :=
    if (if turned then c.h else c.w) ≤ fieldW t f ∧ (if turned then c.w else c.h) ≤ fieldH t f then .ok c else .error .overflow
  if ty = 6 then .ok ⟨[], fieldW t f, fieldH t f, 0⟩
  else match fieldData t x f with
  | .error r => .error r
  | .ok d =>
    if ty = 1 then
      let bs := d.filterMap id
      if bs.length != d.length || bs.any (fun c => glyphW store c == 0 && glyphAdv store c == 0) then .error .data
      else
        let ps := glyphPlaces store (intAt t (e + 26) 2) 0 bs
        if ps.any (fun p => decide (p.1 < 0)) then .error .overflow
        else fits ⟨d, ps.foldl (fun w p => max w (p.1.toNat + glyphW store p.2)) 0, numAt store 4 2, 0⟩
    else
      match symbolSize t f d with
      | .error r => .error r
      | .ok z =>
        let q := quietZone ty (numAt t (e + 22) 1)
        let k := numAt t (e + 19) 1
        let bar := ty == 4 || ty == 5
        fits ⟨d, k * (z.1 + 2 * q), if bar then numAt t (e + 24) 2 else k * (z.2.1 + 2 * q), z.2.2⟩

/-- The bytes of field data that the digest covers. -/
def datumBytes (d : List Datum) : List Byte := d.map (fun x => x.getD Config.fnc1)

/-! ### Bitplanes and the overlay (R340, R348) -/

/-- A bit of a field's content before rotation. -/
def contentBit (t store : List Byte) (f : Nat) (c : Content) (x y : Nat) : Bool :=
  let e := fieldAt t f
  let ty := fieldType t f
  if ty = 6 then true
  else if ty = 1 then
    (glyphPlaces store (intAt t (e + 26) 2) 0 (c.data.filterMap id)).any (fun p =>
      decide (p.1 ≤ (x : Int)) && glyphBit store p.2 ((x : Int) - p.1).toNat y)
  else
    let k := numAt t (e + 19) 1
    let q := quietZone ty (numAt t (e + 22) 1)
    let bar := ty == 4 || ty == 5
    let mx := x / k
    let my := if bar then q else y / k
    decide (q ≤ mx ∧ mx < c.w / k - q) && (bar || decide (q ≤ my ∧ my < c.h / k - q)) &&
      symbolBit ty c.size (numAt t (e + 21) 1) (fieldGs1 t f) c.data (mx - q) (my - q)

/-- A bit of a field's bitplane at a dot of its box: the content rotated clockwise, at the top of the box under ALIGN; a BOX is all ones over
its box (R340). -/
def boxBit (t store : List Byte) (f : Nat) (c : Content) (x y : Nat) : Bool :=
  let e := fieldAt t f
  let rot := numAt t (e + 3) 1 % 4
  let w := if rot % 2 = 1 then c.h else c.w
  let h := if rot % 2 = 1 then c.w else c.h
  let spare := fieldW t f - w
  let x0 := match numAt t (e + 18) 1 with
    | 0 => 0
    | 1 => (spare + b2n Config.centreUp) / 2
    | _ => spare
  if fieldType t f = 6 then decide (x < fieldW t f ∧ y < fieldH t f)
  else if x < x0 ∨ x0 + w ≤ x ∨ h ≤ y then false
  else
    let u := x - x0
    match rot with
    | 0 => contentBit t store f c u y
    | 1 => contentBit t store f c y (c.h - 1 - u)
    | 2 => contentBit t store f c (c.w - 1 - u) (c.h - 1 - y)
    | _ => contentBit t store f c (c.w - 1 - y) u

/-- A field's operation on one dot (R348). -/
def overlayDot (op : Nat) (on off : Byte) (tag : Nat) (b : Bool) (d : Dot) : Dot :=
  if op = 0 then (if b then on else off, tag)
  else if !b then d
  else if op = 1 then (d.1 ||| on, tag)
  else (d.1 &&& ~~~on, d.2)

/-- A field laid over a station line: `px`, `py` the panel's origin, `y` the page line, `fine` 2 on a 600 dpi station. -/
def overlayField (t store : List Byte) (f : Nat) (c : Content) (px py y fine : Nat) (line : List Dot) : List Dot :=
  let e := fieldAt t f
  let x0 := px + fieldX t f
  let y0 := py + fieldY t f
  if y < y0 ∨ y0 + fieldH t f ≤ y then line
  else line.mapIdx (fun i d =>
    let x := fine * i
    if x < x0 ∨ x0 + fieldW t f ≤ x then d
    else overlayDot (numAt t (e + 1) 1) (BitVec.ofNat 8 (numAt t (e + 14) 1)) (BitVec.ofNat 8 (numAt t (e + 15) 1))
      (numAt t (e + 16) 1) (boxBit t store f c (x - x0) (y - y0)) d)

end Sys2Proof.Machine
end

