-- ==== Sys2Proof/Machine/Compose.lean ====
section
/-!
DEFINITION. The compositor (R334, R348, R356 to R361): the order of composition, the pool, deadlines, what a finished panel
comes to, and what the overlay stage lays over a line.
-/

namespace Sys2Proof.Machine

/-! ### Panels and their fields -/

/-- The bytes of a template set. -/
def Mach.tplBytes (m : Mach) (set : Nat) : List Byte := ((tabFind m.tpls set).map TplSet.bytes).getD []

/-- The bytes of the glyph store that a TEXT field names. -/
def Mach.glyphOf (m : Mach) (t : List Byte) (f : Nat) : List Byte :=
  if fieldType t f = 1 then ((tabFind m.glyphs (numAt t (fieldAt t f + 17) 1)).map TplSet.bytes).getD [] else []

/-- The fields of a panel, in template order. -/
def Panel.fields (p : Panel) (t : List Byte) : List Nat := if p.tpl < tplTemplates t then templateFields t p.tpl else []

/-- The fields of a panel that are laid over a station. -/
def Panel.fieldsOn (p : Panel) (t : List Byte) (s : Nat) : List Nat :=
  (p.fields t).filter (fun f => hasBit (fieldStations t f) s)

/-- The least of some numbers; 0 for none. -/
def leastOf (xs : List Nat) : Nat :=
  match xs with
  | [] => 0
  | x :: t => t.foldl min x

/-- The first page line of a panel's fields (R356). -/
def Panel.firstField (p : Panel) (t : List Byte) (fs : List Nat) : Nat := p.y + leastOf (fs.map (fieldY t))

/-- The last page line of some fields of a panel. -/
def Panel.lastField (p : Panel) (t : List Byte) (fs : List Nat) : Nat :=
  fs.foldl (fun h f => max h (p.y + fieldY t f + fieldH t f - 1)) 0

/-- What was fixed at the hit for a panel (R342). -/
def Page.fixed (k : Page) (p : Panel) : Fixed :=
  { values := p.taken.map (fun x => (x.counter, x.value)), lots := k.lots, time := k.time,
    items := p.feed.map FeedEntry.items }

/-- The stations of a page on which a panel has fields. -/
def Page.stationsOf (k : Page) (p : Panel) (t : List Byte) : List Nat :=
  (bitsOf k.stations 6).filter (fun s => !(p.fieldsOn t s).isEmpty)

/-! ### Order and pool (R356, R359) -/

/-- The panels of a page that stand in a state of composition, with the page's key and their place in the order of R356. -/
def Mach.composeOf (m : Mach) (st : Compose) : List (Nat × Nat × Nat) :=
  m.pages.flatMap (fun e =>
    let t := m.tplBytes e.2.tplSet
    (e.2.panels.filter (fun p => p.compose == st)).map (fun p => (e.1, p.firstField t (p.fields t), p.index)))

/-- Whether one place in the order comes before another: pages by hit, then the first field line, then the panel. -/
def composeBefore (a b : Nat × Nat × Nat) : Bool :=
  decide (a.1 < b.1) || (a.1 == b.1 && (decide (a.2.1 < b.2.1) || (a.2.1 == b.2.1 && decide (a.2.2 < b.2.2))))

/-- The first panel in the order. -/
def composeFirst (xs : List (Nat × Nat × Nat)) : Option (Nat × Nat × Nat) :=
  match xs with
  | [] => none
  | x :: t => some (t.foldl (fun b y => if composeBefore y b then y else b) x)

/-- The pool bits of a panel: one a dot of its field boxes. -/
def Panel.area (p : Panel) (t : List Byte) : Nat := (p.fields t).foldl (fun a f => a + fieldW t f * fieldH t f) 0

/-- How far a page has come on a station: the page lines that the overlay stage has taken. -/
def StnPage.overlaid (q : StnPage) : Nat := max q.made q.judged

/-- Whether the last station of a panel's fields has overlaid the last field line. -/
def Page.laidOver (k : Page) (p : Panel) (t : List Byte) : Bool :=
  (k.stationsOf p t).all (fun s =>
    match tabFind k.prog s with
    | some q => q.ended || decide (p.lastField t (p.fieldsOn t s) < q.overlaid)
    | none => true)

/-- The bits of the pool in use. -/
def Mach.poolUsed (m : Mach) : Nat :=
  (tabVals m.pages).foldl (fun n k =>
    let t := m.tplBytes k.tplSet
    k.panels.foldl (fun n p =>
      if (p.compose == .composing || p.compose == .ready) && !k.laidOver p t then n + p.area t else n) n) 0

/-- The bits of the pool: 160 MiB. -/
def poolBits : Nat := 160 * 2 ^ 20 * 8

/-- Change a panel of a page. -/
def Mach.modPanel (m : Mach) (key i : Nat) (f : Panel → Panel) : Mach :=
  m.modPage key (fun k => { k with panels := k.panels.map (fun p => if p.index = i then f p else p) })

/-- A panel of a page in flight. -/
def Mach.panelOf (m : Mach) (key i : Nat) : Option (Page × Panel) :=
  (tabFind m.pages key).bind (fun k => (k.panels.find? (fun p => p.index == i)).map (fun p => (k, p)))

/-- The next panel to compose, and whether its bitplanes fit. -/
def Mach.nextPanel (m : Mach) : Option (Nat × Nat × Bool) :=
  (composeFirst (m.composeOf .queued)).bind (fun c =>
    (m.panelOf c.1 c.2.2).map (fun kp =>
      (c.1, c.2.2, decide (m.poolUsed + kp.2.area (m.tplBytes kp.1.tplSet) ≤ poolBits))))

/-- PANEL_COMPOSE_START: R356, R359. -/
def execPanelComposeStart (s : State) : Host.Outcome State Fault Refusal :=
  onM (fun m =>
    match m.nextPanel with
    | some (key, i, true) => m.modPanel key i (fun p => { p with compose := .composing })
    | _ => m) s

/-- CMP_STAT (R372). -/
def Mach.cmpStat (m : Mach) : Word :=
  let qs := m.composeOf .queued
  let full := match m.nextPanel with
    | some (_, _, fits) => !fits
    | none => false
  BitVec.ofNat 32 (2 ^ 31 * b2n (!(m.composeOf .composing).isEmpty) + 2 ^ 30 * b2n full +
    65536 * min 64 (qs.map (fun c => c.1)).eraseDups.length + qs.length)

/-! ### Deadlines (R358, R360) -/

/-- The deadline of a panel on a station, in position units. -/
def Page.deadline (k : Page) (p : Panel) (t : List Byte) (s : Nat) : Int :=
  k.pos + ((tabFind k.prog s).map StnPage.offset).getD 0 + 64 * ((p.firstField t (p.fieldsOn t s) : Int) - 192)

/-- A bit of CMP_FAULT. -/
def Mach.cmpFault (m : Mach) (i : Nat) : Mach := m.setB 0x500020 i true

/-- A deadline miss of a panel on a station. -/
def Mach.missPanel (m : Mach) (key i s : Nat) : Mach :=
  let m1 := m.modPanel key i (fun p => (p.mark (fMiss ||| fBlanked)))
  let m2 := m1.modPanel key i (fun p => { p with missed := setBitN p.missed s })
  let m3 := (((m2.addSatB 0x50000C 1).cmpFault 0).raise 76).logM 0x05 i 0x0001 2 [s]
  let m4 := m3.imagingMark s 0x05 0x0001
  match m4.panelOf key i with
  | none => m4
  | some (k, p) =>
    if (k.stationsOf p (m4.tplBytes k.tplSet)).all (fun x => hasBit p.missed x) then
      m4.modPanel key i (fun p => { p with compose := .abandoned })
    else m4

/-- The panels of a page that have not met a deadline that a position has passed: each with its station. -/
def Mach.lateOf (m : Mach) (k : Page) (pos : Int) : List (Nat × Nat) :=
  let t := m.tplBytes k.tplSet
  if k.skipped then []
  else (k.panels.filter (fun p => p.compose == .queued || p.compose == .composing)).flatMap (fun p =>
    ((k.stationsOf p t).filter (fun s => !hasBit p.missed s && decide (k.deadline p t s ≤ pos))).map (fun s => (p.index, s)))

/-- Every deadline that the position of the job's channel has reached is judged. -/
def Mach.deadlines (m : Mach) (pos : Int) : Mach :=
  m.pages.foldl (fun t e => (m.lateOf e.2 pos).foldl (fun u l => u.missPanel e.1 l.1 l.2) t) m

/-! ### Composition (R357, R361) -/

/-- The event, code and CMP_FAULT bit of a field failure (R375). -/
def failCode : FieldFail → Nat × Nat × Nat
  | .overflow => (77, 0x0002, 1)
  | .data => (77, 0x0003, 2)
  | .feed => (79, 0x0006, 3)
  | .memory => (83, 0x000B, 6)

/-- A field of a panel fails: it blanks its box lines on every station it names, and the panel takes FIELD_FAIL. A feed entry
that was missing has been reported at the hit. -/
def Mach.failField (m : Mach) (key i f : Nat) (why : FieldFail) : Mach :=
  let m1 := m.modPanel key i (fun p => p.mark fField)
  let m2 := m1.modPanel key i (fun p => { p with failed := p.failed ++ [f] })
  if why = .feed then m2
  else
    let c := failCode why
    let m3 := ((m2.cmpFault c.2.2).raise c.1).logM 0x05 i c.2.1 (if why = .memory then 3 else 2) [f]
    match m3.panelOf key i with
    | none => m3
    | some (k, _) =>
      (bitsOf (k.stations &&& fieldStations (m3.tplBytes k.tplSet) f) 6).foldl (fun t s => t.imagingMark s 0x05 c.2.1) m3

/-- A template set or a glyph store becomes damaged (R361). -/
def Mach.damage (m : Mach) (i : Nat) : Mach := ((m.cmpFault 7).raise 83).logM 0x05 i 0x000C 3 []

/-- An uncorrectable codeword that composition meets (R274). The objects' places in the firmware area are not told. -/
def Mach.composeUe (m : Mach) : Mach :=
  m.uncorrectable m.token (Config.freeNat m.fresh 710 % (firmwareEnd / 64)) 4 0xFF

/-- The damage that a fault of composition does. -/
def Mach.composeFault (m : Mach) (k : Page) (i : Nat) (t : List Byte) (bad : Option ComposeFault) : Mach :=
  match bad with
  | none => m
  | some (.bitplane _) => m.composeUe
  | some (.templateSet _) =>
    ({ m with tpls := tabUpd m.tpls k.tplSet (fun x => { x with damaged := true }) }.composeUe).damage i
  | some (.glyphStore f) =>
    ({ m with glyphs := tabUpd m.glyphs (numAt t (fieldAt t f + 17) 1) (fun x => { x with damaged := true }) }.composeUe).damage i

/-- Whether a field is struck by an uncorrectable codeword that composition met: the field itself, and every later field of the panel that
uses the damaged object (R361). Fields are composed in template order. -/
def struck (t : List Byte) (bad : Option ComposeFault) (f : Nat) : Bool :=
  match bad with
  | some (.bitplane g) => f == g
  | some (.templateSet g) => decide (g ≤ f)
  | some (.glyphStore g) =>
    f == g || (decide (g < f) && fieldType t f == 1 && numAt t (fieldAt t f + 17) 1 == numAt t (fieldAt t g + 17) 1)
  | none => false

/-- Whether an object that a field uses is damaged. -/
def Mach.damagedFor (m : Mach) (k : Page) (t : List Byte) (f : Nat) : Bool :=
  (((tabFind m.tpls k.tplSet).map TplSet.damaged).getD false) ||
    (fieldType t f == 1 && ((tabFind m.glyphs (numAt t (fieldAt t f + 17) 1)).map TplSet.damaged).getD false)

/-- What a field comes to. -/
def Mach.composeOne (m : Mach) (k : Page) (p : Panel) (t : List Byte) (bad : Option ComposeFault) (f : Nat) : Except FieldFail Content :=
  if struck t bad f || m.damagedFor k t f then .error .memory else composeField t (m.glyphOf t f) (k.fixed p) f

/-- The data of a field as its digest covers it (R341, R362): fixed at the hit, whether or not the field is composed. What a data
error leaves there is not told. -/
def Mach.digestData (m : Mach) (t : List Byte) (x : Fixed) (i f : Nat) : List Byte :=
  match fieldType t f, fieldData t x f with
  | 6, _ => []
  | _, .ok d => datumBytes d
  | _, .error _ =>
    let o := 2 ^ 40 + 2 ^ 24 * (2048 * i + f)
    (List.range (Config.freeNat m.fresh o % 3117)).map (fun k => Config.freeByte m.fresh (o + k))

/-- The data of a page's panels are fixed (R342, R362). -/
def Mach.withData (m : Mach) (t : List Byte) (k : Page) : Page :=
  { k with panels := k.panels.map (fun p => { p with data := (p.fields t).map (m.digestData t (k.fixed p) p.index) }) }

/-- A panel's composition ends (R357, R372). -/
def Mach.panelDone (m : Mach) (key i : Nat) (bad : Option ComposeFault) : Mach :=
  match m.panelOf key i with
  | none => m
  | some (k, p) =>
    let t := m.tplBytes k.tplSet
    let late : Int := (m.now : Int) - k.time
    let pos := m.encPos (((tabFind m.jobs k.job).map Job.encoder).getD 0)
    let slack := (k.stationsOf p t).foldl (fun (b : Int) s => min b ((k.deadline p t s - pos) / 64))
      ((m.rdA 0x500010).toInt)
    let rs := (p.fields t).map (fun f => (f, m.composeOne k p t bad f))
    let m1 := (m.composeFault k i t bad).modPanel key i (fun q => { q with compose := .ready })
    let m2 := ((m1.addB 0x500008 1).wrB 0x500010 (BitVec.ofInt 32 slack)).wrB 0x500014
      (BitVec.ofNat 32 (satAt 0xFFFFFFFF (max (m.rdA 0x500014).toNat late.toNat)))
    rs.foldl (fun u r => match r.2 with
      | .ok _ => u
      | .error e => u.failField key i r.1 e) m2

/-- The codewords that Chanter read with errors that a side could correct (R271), on every side in service. One that it could not correct is
reported through the failure of its field. -/
def chanterReads (errs : SymErrs) (x : Mem) : Mem :=
  let one (d : SideId) (y : Mem) (cw : Nat) : Mem :=
    let raw := if d == x.2.token then errsAt errs cw else []
    if y.2.inService d && (readCw d cw 4 0xFF raw y).2.isSome then (readCw d cw 4 0xFF raw y).1 else y
  (errs.map (fun e => e.1 / 64)).eraseDups.foldl (fun y cw => one x.2.token.other (one x.2.token y cw) cw) x

/-- PANEL_READY: R356, R357, R360, R361. The panel composing that comes first in the order is the one that completes, unless every
station has missed it by now. -/
def execPanelReady (result : ComposeResult) (s : State) : Host.Outcome State Fault Refusal :=
  onMem (fun img m0 =>
    match composeFirst (m0.composeOf .composing) with
    | none => (img, m0)
    | some c =>
      match m0.panelOf c.1 c.2.2 with
      | none => (img, m0)
      | some (k, p) =>
        let x := chanterReads result.errs (img, m0)
        let m := x.2
        let pos := m.encPos (((tabFind m.jobs k.job).map Job.encoder).getD 0)
        let m1 := (m.lateOf k pos).foldl (fun u l => u.missPanel c.1 l.1 l.2) m
        let lives := ((m1.panelOf c.1 p.index).map (fun q => q.2.compose == .composing)).getD false
        (x.1, if lives then m1.panelDone c.1 p.index result.bad else m1)) s

/-! ### Overlay (R27, R348) -/

/-- Whether a field of a panel that has not failed reaches a page line on a station, and the panel is not yet ready there:
the overlay stage waits, for its deadline is still ahead. -/
def Page.waits (k : Page) (t : List Byte) (s y : Nat) : Bool :=
  k.panels.any (fun p =>
    let fs := p.fieldsOn t s
    (p.compose == .queued || p.compose == .composing) && !hasBit p.missed s && !fs.isEmpty &&
      decide (p.firstField t fs ≤ y ∧ y ≤ p.lastField t fs))

/-- Lay the fields of a page over a station line whose first page line is `y`: `fine` is 2 at 600 dpi. -/
def Mach.overlay (m : Mach) (k : Page) (s y fine : Nat) (line : List Dot) : List Dot :=
  let t := m.tplBytes k.tplSet
  k.panels.foldl (fun ln p =>
    if p.compose == .ready && !hasBit p.missed s then
      (p.fieldsOn t s).foldl (fun ln f =>
        if p.failed.contains f then ln
        else match composeField t (m.glyphOf t f) (k.fixed p) f with
          | .ok c => overlayField t (m.glyphOf t f) f c p.x p.y y fine ln
          | .error _ => ln) ln
    else ln) line

/-- Whether missed panels or failed fields blank a page line on a station (R350, R360, R361). -/
def Mach.fieldsBlank (m : Mach) (k : Page) (s y : Nat) : Bool :=
  let t := m.tplBytes k.tplSet
  k.panels.any (fun p =>
    if p.tpl = 0x10000 then !p.failed.isEmpty && decide (p.y ≤ y ∧ y ≤ p.last)
    else
      let fs := p.fieldsOn t s
      (hasBit p.missed s && !fs.isEmpty && decide (p.firstField t fs ≤ y ∧ y ≤ p.lastField t fs)) ||
        fs.any (fun f => p.failed.contains f && decide (p.y + fieldY t f ≤ y ∧ y < p.y + fieldY t f + fieldH t f)))

end Sys2Proof.Machine
end

