-- ==== Sys2Proof/Machine/Decoders.lean ====
section
/-!
DEFINITION. The station decoders and screening (R27, R28, R304 to R321, R331, R380 to R386, R402): reading planes and feeds,
bands and lines, stream errors, page boundaries and state records, and the line that enters the buffer of its station.
-/

namespace Sys2Proof.Machine

/-! ### Decoders -/

/-- The registers of a decoder. -/
def decBase (s : Nat) : Nat := 0x401000 + 0x100 * s

/-- A station's decoder. -/
def Mach.decOf (m : Mach) (s : Nat) : Decoder := tabGet Decoder.init m.decs s

/-- Change a station's decoder. -/
def Mach.modDec (m : Mach) (s : Nat) (f : Decoder → Decoder) : Mach := { m with decs := tabPut m.decs s (f (m.decOf s)) }

/-- Whether a station runs at 600 dpi (R409). -/
def Mach.dpi600 (m : Mach) (s : Nat) : Bool := m.bitA (scbBase s + 0x20) 30

/-- 1200 dpi lines of a station line. -/
def Mach.fine (m : Mach) (s : Nat) : Nat := if m.dpi600 s then 2 else 1

/-- IN_OFFSET (R317, R318). -/
def Decoder.inOffset (d : Decoder) : Nat := if d.fromFeed then d.feedOff else d.planeOff

/-- Whether a page is decoded without output: it is not in flight, or every line of it is blanked (R246, R317). -/
def Mach.isDry (m : Mach) (p : DecPage) : Bool :=
  match tabFind m.pages p.key with
  | some k => k.skipped
  | none => true

/-- CDC_DEC_STAT (R332). -/
def Mach.decStat (m : Mach) (s : Nat) : Word :=
  let d := m.decOf s
  let dry := ((d.queue.head?).map m.isDry).getD false
  let st := match d.state with
    | .idle => 0
    | .decode => if dry then 2 else 1
    | .seek => 3
    | .wait => 4
  BitVec.ofNat 32 (2 ^ 29 * st + 2 ^ 28 * b2n d.histValid + 2 ^ 27 * b2n d.fromFeed + 65536 * d.lastCause + d.st.tag)

/-! ### Bands and lines (R305 to R313) -/

/-- PAD bytes at the front. -/
def padRun (bs : List Byte) : Nat := (bs.takeWhile (fun b => b == 0xFC)).length

/-- What a decoder's run comes to: the bytes consumed, whether a line is complete, and a stream error. -/
structure RunOut where
  dec  : Decoder
  used : Nat
  made : Bool
  err  : Option Nat
  deriving DecidableEq, Repr

/-- Where a band may start: PAD is passed, though not before the first stream of a plane or a feed, a header opens a band, END ends the stream when the station has its lines. The width
is the plane's, where the stream is a plane. -/
def Decoder.openBand (d : Decoder) (taken : Bool) (planeW : Option Nat) (bs : List Byte) : RunOut :=
  let first := d.bandNext == 0
  let pads := if first && (planeW.isSome || d.feedOff == 0) then 0 else padRun bs
  let rest := bs.drop pads
  match rest with
  | [] => ⟨d, pads, false, none⟩
  | b :: _ =>
    if b = 0xFF then
      if taken then ⟨{ d with ended := true }, pads + 1, false, none⟩ else ⟨d, pads, false, some 6⟩
    else if b ≠ 0xF8 then ⟨d, pads, false, some (if first then 2 else 5)⟩
    else if rest.length < 32 then ⟨d, pads, false, none⟩
    else
      let h := bandOf (rest.take 32)
      let wide := match planeW with
        | some w => h.width == w
        | none => if first then decide (1 ≤ h.width ∧ h.width ≤ 24567) else h.width == d.width
      if !bandSound (rest.take 32) || !wide || h.no != d.bandNext || h.first != first then ⟨d, pads, false, some 2⟩
      else if first && !h.reset && !d.histValid then ⟨d, pads, false, some 7⟩
      else
        let st0 := { d.st with tag := h.tag, part := [] }
        let st := if h.reset then { st0.reset h.width with tag := h.tag } else st0
        ⟨{ d with st := st, histValid := d.histValid || h.reset, width := h.width, band := h.no, bandNext := h.no + 1,
                  bandLeft := h.lines, bandBytes := h.bytes, payload := 0 }, pads + 32, true, none⟩

/-- Decode up to the end of a line, from the bytes at hand. -/
def Decoder.runLine (d : Decoder) (taken : Bool) (planeW : Option Nat) (bs : List Byte) : RunOut :=
  let o := if d.bandLeft = 0 then d.openBand taken planeW bs else ⟨d, 0, true, none⟩
  if !o.made then o
  else
    let r := decodeLine o.dec.width (bs.length + 1) o.dec.st (bs.drop o.used) 0
    let d1 := { o.dec with st := r.1, payload := o.dec.payload + r.2.1 }
    let used := o.used + r.2.1
    match r.2.2 with
    | .line =>
      let d2 := { d1 with st := r.1.endLine, bandLeft := d1.bandLeft - 1 }
      ⟨d2, used, true, if d2.bandLeft = 0 ∧ d2.payload ≠ d2.bandBytes then some 5 else none⟩
    | .error c => ⟨d1, used, false, some c⟩
    | .starved => ⟨d1, used, false, none⟩

/-! ### Fetching (R27, R274, R275) -/

/-- What a station fetches from image memory, as the command finds it: the bytes, and the first bad codeword on any side in
service. -/
def peek (a len s : Nat) (errs : SymErrs) (x : Mem) : ReadOut :=
  let r := (memRead x.2.token a len 1 s false errs x).2
  if x.2.inService x.2.token.other then
    let q := (memRead x.2.token.other a len 1 s false [] x).2
    { r with bad := match r.bad with
      | some b => some b
      | none => q.bad }
  else r

/-- The fetch's effects on both sides' controllers (R274, R275). A codeword that the line before has fetched already is not fetched
again. A raw line is fetched whole; a codec stream is not read beyond a codeword that `stop`s it. -/
def fetch (a len s : Nat) (again stop : Bool) (errs : SymErrs) (x : Mem) : Mem :=
  let lo := if again then roundUp 64 a else a
  let n := a + len - lo
  let y := (memRead x.2.token lo n 1 s stop errs x).1
  if x.2.inService x.2.token.other then (memRead x.2.token.other lo n 1 s stop [] y).1 else y

/-- The feed of a station as the token holder has it. -/
def Mach.feedOf (m : Mach) (s : Nat) : List Byte := tabGet [] (m.side m.token).feeds s

/-- Feed bytes are consumed on every side. -/
def Mach.takeFeed (m : Mach) (s n : Nat) : Mach :=
  (m.onSides Mach.fitted (fun d t => t.modSide d (fun x => { x with
    feeds := sparsePut (fun _ => ([] : List Byte)) x.feeds s ((tabGet [] x.feeds s).drop n) }))).modDec s
    (fun d => { d with feedOff := d.feedOff + n })

/-- The codewords that a feed's fetch or the overlay's reads met with errors, read on every side in service, and whether one of them is
uncorrectable on any (R267, R271, R274, R275). Where feeds and bitplanes lie in the firmware area is not told: the command names the
codewords, and the bytes themselves are held apart. -/
def readFirmware (src inst : Nat) (errs : SymErrs) (x : Mem) : Mem × Bool :=
  let one (d : SideId) (r : Mem × Bool) (cw : Nat) : Mem × Bool :=
    if r.1.2.inService d then
      let q := readCw d cw src inst (if d == x.2.token then errsAt errs cw else []) r.1
      (q.1, r.2 || q.2.isNone)
    else r
  (errs.map (fun e => e.1 / 64)).eraseDups.foldl (fun r cw => one x.2.token.other (one x.2.token r cw) cw) (x, false)

/-! ### Stream errors (R313, R314) -/

/-- The page that a decoder has in progress. -/
def Decoder.page (d : Decoder) : Option DecPage := if d.state = .idle then none else d.queue.head?

/-- The station blanks every line of a page from a page line on, where they remain to be exposed. -/
def Mach.blankRest (m : Mach) (s key y : Nat) : Mach :=
  m.modPage key (fun k => { k with prog := tabUpd k.prog s (fun q => { q with
    blankFrom := some (match q.blankFrom with
      | some b => min b y
      | none => y) }) })

/-- The feed is searched for the next stream (R314 step 4): bytes that begin none are discarded. -/
def Mach.seekFeed (m : Mach) (s : Nat) : Mach :=
  let f := m.feedOf s
  m.takeFeed s (f.length - (seekDrop f).length)

/-- A stream error in the page in progress, found at an IN_OFFSET (R313, R314). -/
def Mach.streamError (m : Mach) (s code off : Nat) : Mach :=
  match (m.decOf s).page with
  | none => m
  | some p =>
    let d := m.decOf s
    let m1 := (m.logM 0x04 s code 2 [off]).imagingMark s 0x04 code
    let m2 := (m1.addSatF (decBase s + 0x1C) 0 8 1).setB (decBase s + 0x1C) 31 true
    let m3 := m2.wrB64 (decBase s + 0x20) off
    let m4 := m3.modDec s (fun x => { x with lastCause := code, histValid := false, blanked := true
                                             state := if x.fromFeed then .seek else x.state })
    let m5 := if d.line < p.lines then m4.blankRest s p.key (d.line * m.fine s) else m4
    if d.fromFeed then
      let f := m5.feedOf s
      let own := d.bandNext == 0 && seekHit f
      (if own then m5.takeFeed s 32 else m5).seekFeed s
    else m5

/-- New feed bytes reach a station: a decoder that waits goes on, and one that seeks discards (R288, R314, R332). -/
def Mach.feedArrived (m : Mach) (s : Nat) : Mach :=
  match (m.decOf s).state with
  | .wait => m.modDec s (fun d => { d with state := .decode })
  | .seek => m.seekFeed s
  | .idle => m
  | .decode => m

/-! ### Screening (R380, R381, R384, R402) -/

/-- One line passes through the ramp (R380): its curves, and the station after it. -/
def Station.rampLine (t : Station) (next : Nat) : List Nat × Station :=
  match t.trcShadow with
  | none => (t.trc, t)
  | some new =>
    if t.rampLeft = 0 then (t.trc, t)
    else
      let k := t.rampLen - t.rampLeft + 1
      let now := rampCurves t.trc new k t.rampLen
      if 1 < t.rampLeft then (now, { t with rampLeft := t.rampLeft - 1 })
      else
        let n := max 1 next
        match t.trcQueued with
        | none => (now, { t with trc := new, trcShadow := none, rampLeft := 0 })
        | some q => (now, { t with trc := new, trcShadow := some q, trcQueued := none, rampLeft := n, rampLen := n })

/-- Whether a line is exposed with derate (R402): the first line of a page takes THROTTLE, later lines keep what they have. -/
def Mach.derateAt (m : Mach) (s y : Nat) : Bool := m.bitA (scbBase s) 27 || (y != 0 && (m.stnOf s).derate)

/-- A line of a page enters screening on a station: its levels. -/
def Mach.screen (m : Mach) (s key y : Nat) (dots : List Dot) : Mach × List Nat × Bool :=
  match tabFind m.pages key with
  | none => (m, [], false)
  | some k =>
    let set := (m.stnOf s).set
    let low := m.dpi600 s
    let on := m.derateAt s y
    let line := m.overlay k s (y * m.fine s) (m.fine s) (placeDots set low dots)
    let r := (m.stnOf s).rampLine (m.getA (scbBase s + 0x1C) 16 16)
    let m1 := (m.modStn s (fun _ => { r.2 with derate := on })).wrB (scbBase s + 0xC) (BitVec.ofNat 32 (y + 1))
    let m2 := if on && !(m.stnOf s).derate then m1.wrB (scbBase s + 0x30) (BitVec.ofNat 32 y) else m1
    (if on then m2.spoilWin s key else m2, fineLevels low (screenLine set r.1 on y line), on)

/-- How many lines of a page have been judged for exposure on a station. -/
def Mach.judgedOf (m : Mach) (s key : Nat) : Nat :=
  (((tabFind m.pages key).bind (fun k => tabFind k.prog s)).map StnPage.judged).getD 0

/-- A line that the decoder has produced joins the buffer of its station, unless it is late (R29). -/
def Mach.bufferLine (m : Mach) (s key y : Nat) (dots : List Dot) (bad : Bool) : Mach :=
  let r := m.screen s key y dots
  let new : BufLine := { page := key, y := y, levels := r.2.1, blank := bad, derate := r.2.2 }
  let late := decide ((y + 1) * m.fine s ≤ m.judgedOf s key)
  (r.1.modStn s (fun t => { t with buffer := if late then t.buffer else t.buffer ++ [new] })).modPage key (fun k => { k with
    prog := tabUpd k.prog s (fun q => { q with made := min k.length ((y + 1) * m.fine s) }) })

/-- A line of the page in progress is produced: it is delivered where the page exposes. -/
def Mach.lineMade (m : Mach) (s : Nat) (p : DecPage) (dots : List Dot) (bad : Bool) : Mach :=
  let y := (m.decOf s).line
  if p.lines ≤ y then m.modDec s (fun d => { d with extra := true })
  else
    let m1 := if m.isDry p then m else m.bufferLine s p.key y dots bad
    m1.modDec s (fun d => { d with line := y + 1, shown := !m.isDry p })

/-! ### Lines (R306, R314, R320) -/

/-- A line of a raw plane. -/
def rawLineDone (s : Nat) (p : DecPage) (src : Plane) (errs : SymErrs) (x : Mem) : Mem :=
  let y := (x.2.decOf s).line
  let tagged := src.bytes == (rawBytes src.width src.lines).2
  let stride := if tagged then src.width + ceilDiv src.width 4 else src.width
  if src.lines ≤ y then (x.1, x.2.lineMade s p (List.replicate src.width (0, 0)) false)
  else
    let a := src.off + y * stride
    let r := peek a stride s errs x
    let q := fetch a stride s (decide (0 < y)) false errs x
    let m1 := q.2.modDec s (fun d => { d with planeOff := (y + 1) * stride })
    let run := ((m1.stnOf s).buffer.getLast?.map (fun l => l.page == p.key && l.blank)).getD false
    let m2 := if r.bad.isSome && !run && !m1.isDry p then m1.imagingMark s 0x03 0x0002 else m1
    (q.1, m2.lineMade s p (rawLine src.width r.bytes) r.bad.isSome)

/-- What a run over a plane's bytes or a feed comes to, once its bytes are consumed and `bad` tells an uncorrectable codeword
among them. -/
def Mach.runDone (m : Mach) (s : Nat) (p : DecPage) (o : RunOut) (bad : Option Nat) (short : Bool) : Mach :=
  let d := m.decOf s
  let keep (r : Decoder) : Decoder :=
    { r with feedOff := d.feedOff, planeOff := d.planeOff, line := d.line, state := d.state, extra := d.extra }
  match bad with
  | some off => m.streamError s 8 off
  | none =>
    let m1 := m.modDec s (fun _ => keep o.dec)
    let m2 := if o.made then m1.lineMade s p o.dec.st.prev false else m1
    match o.err with
    | some c => m2.streamError s c (m2.decOf s).inOffset
    | none =>
      if o.made || o.dec.ended then m2
      else if short then m2.streamError s 6 (m2.decOf s).inOffset
      else m2.modDec s (fun x => { x with state := .wait })

/-- A line of a codec plane: the decoder runs on the bytes before the first codeword that cannot be corrected, and a stream that needs more
of them meets it (R313, R314). -/
def planeLineDone (s : Nat) (p : DecPage) (src : Plane) (errs : SymErrs) (x : Mem) : Mem :=
  let d := x.2.decOf s
  let a := src.off + d.planeOff
  let left := src.bytes - d.planeOff
  let all := peek a left s errs x
  let sound := match all.bad with
    | some b => all.bytes.take (b - a)
    | none => all.bytes
  let o := d.runLine false (some src.width) sound
  let hit := all.bad.isSome && !o.made && o.err.isNone && !o.dec.ended
  let len := if hit then min left (((all.bad.getD a) + 1) - a) else min left (o.used + (if o.err.isSome && !o.made then 1 else 0))
  let q := fetch a (max len (b2n hit)) s (decide (0 < d.planeOff) && !hit) true errs x
  let at_ : Option Nat := if hit then all.bad.map (fun b => b - src.off) else none
  let m1 := if at_.isSome then q.2 else q.2.modDec s (fun e => { e with planeOff := d.planeOff + o.used })
  (q.1, m1.runDone s p o at_ true)

/-- A line of a feed. -/
def Mach.feedLineDone (m : Mach) (s : Nat) (p : DecPage) (bad : Bool) : Mach :=
  let d := m.decOf s
  let o := d.runLine (decide (p.lines ≤ d.line)) none (m.feedOf s)
  if bad then m.runDone s p o (some d.feedOff) false else (m.takeFeed s o.used).runDone s p o none false

/-- The overlay stage meets an uncorrectable codeword in the bitplane of a field of a panel that is ready (R361): the field fails. -/
def Mach.overlayFault (m : Mach) (p : DecPage) (bitplane : Option (Nat × Nat)) : Mach :=
  match bitplane with
  | none => m
  | some (i, f) =>
    match m.panelOf p.key i with
    | none => m
    | some (_, q) => if q.compose == .ready && !q.failed.contains f then m.composeUe.failField p.key i f .memory else m

/-- DECODER_LINE_DONE: R306, R313, R314, R320. The overlay stage waits for a panel whose deadline is still ahead,
and for room among the 128 lines of R28. The errors of a feed page's fetch lie in its feed; those that a plane's page meets in the firmware area
lie in the bitplanes of its fields, which Chanter reads (R271). -/
def execDecoderLineDone (station : Nat) (reads : LineReads) (s : State) : Host.Outcome State Fault Refusal :=
  onMem (fun img m0 =>
    let m := m0.deadlines (m0.encPos (((tabFind m0.jobs m0.armed).map Job.encoder).getD 0))
    let d := m.decOf station
    match d.page with
    | none => (img, m0)
    | some p =>
      let held := match tabFind m.pages p.key with
        | some k => !k.skipped && decide (d.line < p.lines) &&
            k.waits (m.tplBytes k.tplSet) station (d.line * m.fine station)
        | none => false
      let full := decide (128 / m.fine station ≤ (m.stnOf station).buffer.length) && !m.isDry p
      if d.state != .decode || d.blanked || d.ended || held || full then (img, m0)
      else
        let m1 := m.overlayFault p reads.bitplane
        let errs := reads.errs
        match p.src with
        | none =>
          let r := readFirmware 1 station errs (img, m1)
          (r.1.1, r.1.2.feedLineDone station p r.2)
        | some src =>
          let x := (readFirmware 4 0xFF (errs.filter (fun e => decide (e.1 < firmwareEnd))) (img, m1)).1
          if p.lines ≤ d.line then (img, m0)
          else if src.codec then planeLineDone station p src errs x
          else rawLineDone station p src errs x) s

/-! ### Pages (R316 to R319) -/

/-- Tags packed four to a byte, lowest first (R304). -/
def packTags : List Nat → List Byte
  | a :: b :: c :: d :: t => BitVec.ofNat 8 (a + 4 * b + 16 * c + 64 * d) :: packTags t
  | [] => []
  | rest => [BitVec.ofNat 8 (leastTags rest)]
where
  /-- The last tags of a line. -/
  leastTags : List Nat → Nat
    | [] => 0
    | a :: t => a + 4 * leastTags t

/-- Bytes with zeros up to a length. -/
def padTo (n : Nat) (bs : List Byte) : List Byte := bs ++ List.replicate (n - bs.length) 0

/-- A state record (R318). -/
def stateRecord (s job : Nat) (p : DecPage) (dry : Bool) (d : Decoder) : List Byte :=
  let ptr := d.st.made % 65536
  let old := (padTo 65536 d.st.hist).reverse
  let head := leBytes 4 0x53435257 ++ leBytes 2 1 ++ leBytes 1 s ++
    leBytes 1 (b2n d.histValid + 2 * b2n d.fromFeed + 4 * b2n d.blanked + 8 * b2n dry) ++ leBytes 4 job ++ leBytes 4 p.pageNo ++
    leBytes 8 d.inOffset ++ leBytes 4 p.plane ++ leBytes 4 d.st.fill ++ leBytes 4 ptr ++ leBytes 4 d.st.prev.length ++
    leBytes 4 d.line ++ leBytes 1 d.st.tag ++ leBytes 15 0
  let body := old.drop (65536 - ptr) ++ old.take (65536 - ptr) ++ padTo 24576 (d.st.prev.map Prod.fst) ++
    padTo 6144 (packTags (d.st.prev.map Prod.snd))
  head ++ wordBytes (crc32c (head ++ body)) ++ body

/-- Decode the rest of a feed's stream without output, up to END (R316). -/
def Mach.drainFeed (m : Mach) (s : Nat) (p : DecPage) : Nat → Mach
  | 0 => m
  | fuel + 1 =>
    let d := m.decOf s
    if d.state != .decode || d.blanked || d.ended then m else (m.feedLineDone s p false).drainFeed s p fuel

/-- CODEC_LONG (R313): logged once for the page. -/
def Mach.codecLong (m : Mach) (s : Nat) : Mach := m.logM 0x04 s 0x0009 1 []

/-- The record of a page boundary is saved, and the decoder rests (R317). A page whose last line was decoded with output is not DRY, though
it may have left the station by then. -/
def Mach.savePage (m : Mach) (s : Nat) (p : DecPage) : Mach :=
  let m1 := if (m.decOf s).fromFeed then m.takeFeed s (padRun (m.feedOf s)) else m
  let d := m1.decOf s
  let long := if d.fromFeed then d.extra else (p.src.map Plane.codec).getD false && !d.blanked && decide (0 < d.bandLeft)
  let m2 := if long then m1.codecLong s else m1
  m2.modDec s (fun x => { x with
    saved := stateRecord s m.armed p (m.isDry p && !d.shown) d, savedPage := p.pageNo, queue := x.queue.tail, state := .idle, ready := true })

/-- LIG_STN_STAT of a station. -/
def ligStn (s : Nat) : Nat := 0xFC0100 + 0x20 * s

/-- Whether the standby side follows every line (R585). -/
def Mach.shadowed (m : Mach) : Bool := m.fitted m.token.other && (m.side m.token.other).st == .shadow

/-- Whether firmware may restore a record to a station's decoder (R319): the decoder is IDLE between pages, and the record is whole, of the
armed job and of the same station. -/
def Mach.restorable (m : Mach) (s : Nat) (rec : List Byte) : Bool :=
  (m.decOf s).state == .idle && decide (rec.length = 96320) && numAt rec 0 4 == 0x53435257 && numAt rec 6 1 == s && numAt rec 8 4 == m.armed &&
    wordAt rec 60 == crc32c (rec.take 60 ++ rec.drop 64)

/-- The decoder that a record restores (R318, R319): it rests, and the next page starts from the record's state. -/
def Decoder.restored (d : Decoder) (rec : List Byte) : Decoder :=
  let ptr := numAt rec 32 4
  let ring := (rec.drop 64).take 65536
  let fill := numAt rec 28 4
  let wide := numAt rec 36 4
  let tags := (rec.drop 90176).flatMap (fun b => [b.toNat % 4, b.toNat / 4 % 4, b.toNat / 16 % 4, b.toNat / 64])
  let off := numAt rec 16 8
  let feed := bitOf (wordAt rec 4) 25
  { d with
    histValid := bitOf (wordAt rec 4) 24, fromFeed := feed, blanked := bitOf (wordAt rec 4) 26
    feedOff := if feed then off else d.feedOff, planeOff := if feed then d.planeOff else off
    line := numAt rec 40 4
    st := { d.st with
      hist := ((ring.drop ptr ++ ring.take ptr).reverse).take fill, fill := fill
      made := if d.st.made % 65536 = ptr then d.st.made else ptr
      prev := ((rec.drop 65600).take wide).zip (tags.take wide), tag := numAt rec 44 1 } }

/-- Firmware restores the active side's record to a station's decoder of the standby side (R319, R586, R600): it is refused where R319 does
not accept it. The sides' decoders are held once, so a record that agrees with the decoder leaves it as it is. -/
def Mach.restoreDec (m : Mach) (s : Nat) (rec : List Byte) : Mach :=
  if m.restorable s rec then m.modDec s (fun d => d.restored rec) else m

/-- A station matches from the first page that a level standby side decodes, once its synthesizer is locked (R587), from the record that
it has restored (R319). -/
def Mach.matchStation (m : Mach) (s : Nat) : Mach :=
  let r := ligStn s
  let locked := m.getA (pxcBase s) 30 2 != 1 || (m.getA (pxcBase s + 4) 29 3 == 2 && m.bitA (pxcBase s + 4) 28)
  if m.shadowed && locked && !m.bitA r 31 && !m.bitA r 30 then
    let m1 := (m.restoreDec s (m.decOf s).saved).setB r 31 true
    if m1.getA 0xFC001C 28 4 = 4 && (List.range 6).all (fun t => (m1.stnOf t).job == 0 || m1.bitA (ligStn t) 31) then m1.wrB 0xFC001C 0
    else m1
  else m

/-- A station that waits for a page boundary to resynchronise does so (R583, R600): every panel of the pages whose lines it has formatted
since the mismatch carries SUSPECT, and the station matches again from the next page; without a level standby side none does. -/
def Mach.resyncAt (m : Mach) (s pageNo : Nat) : Mach :=
  let r := ligStn s
  if m.bitA r 30 then
    let m1 := m.pages.foldl (fun t e => match tabFind e.2.prog s with
      | some q => if !q.ended && decide (0 < q.judged) then t.modPage e.1 (fun k => k.flagAll fSuspect) else t
      | none => t) m
    let m2 := ((m1.setB r 30 false).wrB (r + 0xC) (BitVec.ofNat 32 pageNo)).matchStation s
    if m.shadowed then (m2.raise 114).logM 0x0F s 0x0603 0 [pageNo] else m1.setB r 30 false
  else m

/-- DECODER_PAGE_BOUNDARY: R313, R316, R317. -/
def execDecoderPageBoundary (station : Nat) (s : State) : Host.Outcome State Fault Refusal :=
  onM (fun m =>
    match (m.decOf station).page with
    | none => m
    | some p =>
      let d := m.decOf station
      if decide (d.line < p.lines) && !d.blanked then m
      else if !d.fromFeed then (m.savePage station p).resyncAt station (p.pageNo + 1)
      else
        let m1 := m.drainFeed station p ((m.feedOf station).length + 1)
        if (m1.decOf station).ended then (m1.savePage station p).resyncAt station (p.pageNo + 1) else m1) s

/-- Whether the sequencer may start a page on its decoder (R28): 64 lines before the station's first exposed line. A page without output
starts at once (R317 step 3). -/
def Mach.decodeDue (m : Mach) (s : Nat) (p : DecPage) : Bool :=
  m.isDry p || decide (p.start - 64 * 64 * (m.fine s : Int) ≤ m.encPos (((tabFind m.jobs m.armed).map Job.encoder).getD 0))

/-- DECODER_PAGE_BEGIN: R28, R317. -/
def execDecoderPageBegin (station : Nat) (s : State) : Host.Outcome State Fault Refusal :=
  onM (fun m =>
    let d := m.decOf station
    match d.queue with
    | [] => m
    | p :: _ =>
      if d.state != .idle || !d.ready || !m.decodeDue station p then m
      else (m.matchStation station).modDec station (fun x => { x with
        state := .decode, fromFeed := p.src.isNone, line := 0, band := 0, bandNext := 0, bandLeft := 0, bandBytes := 0
        payload := 0, width := ((p.src.map Plane.width).getD 0), planeOff := 0, ended := false, extra := false
        blanked := false, shown := false, ready := false })) s

/-- FEED_SEEK_FOUND: R314 step 4. The header stays for the next page. -/
def execFeedSeekFound (station : Nat) (s : State) : Host.Outcome State Fault Refusal :=
  onM (fun m =>
    if (m.decOf station).state != .seek then m
    else
      let m1 := m.seekFeed station
      if seekHit (m1.feedOf station) then m1.modDec station (fun d => { d with state := .decode, ended := true }) else m1) s

/-- A word of the latest state record (R333). -/
def Mach.srecWord (m : Mach) (d : SideId) : Word :=
  let sel := m.rd d 0x408000
  let w := fieldOf sel 0 15
  if 24079 < w then 0 else wordAt (m.decOf (fieldOf sel 16 3)).saved (4 * w)

/-- A page joins the queue of a station's decoder, in the order of the start positions (R317). -/
def insertDec (p : DecPage) : List DecPage → List DecPage
  | [] => [p]
  | q :: t => if p.start < q.start then p :: q :: t else q :: insertDec p t

end Sys2Proof.Machine
end

