-- ==== Sys2Proof/Machine/Encode.lean ====
section
/-!
DEFINITION. The encoder (R322 to R330): PLANE_ENCODE waits its turn, and the end of its pass writes the codec plane on each
side.
-/

namespace Sys2Proof.Machine

/-- CDC_ENC_STAT (R329). -/
def Mach.encStat (m : Mach) : Word :=
  BitVec.ofNat 32 (2 ^ 31 * b2n (!m.encodes.isEmpty) + (m.encodes.length - 1) % 65536)

/-- CDC_ENC_LINE: how far the encoder has come in a plane is not told. -/
def Mach.encLine (m : Mach) : Word :=
  match m.encodes with
  | [] => 0
  | j :: _ => BitVec.ofNat 32 (Config.freeNat m.fresh 730 % (j.src.lines + 1))

/-- PLANE_ENCODE's plan. -/
def planPlaneEncode (msg : Msg) (m : Mach) : Plan :=
  let p := msg.payload
  let pid := numAt p 0 4
  let rid := numAt p 4 4
  let src := tabFind m.planes pid
  let reg := tabFind m.regions rid
  let start := 65536 * numAt p 8 4
  let room := (reg.map Region.bytes).getD (2 ^ 64)
  let base := (reg.map Region.off).getD 0
  { param := firstBad [((src.map Plane.codec).getD false, 0), (decide (room ≤ start), 8)]
    state := match src, reg with
      | some x, some r => !m.rangeReady x.off x.bytes || !m.rangeReady (r.off + start) (r.bytes - start)
      | _, _ => false
    refuse := if src.isNone then some (stNotFound, pid)
              else if reg.isNone then some (stNotFound, rid)
              else if m.regionUsed rid then some (stInUse, rid) else none
    later := some .planeEncode
    act := fun t =>
      match src with
      | none => t
      | some x =>
        let new : EncodeJob := { tag := msg.tag, src := x, region := rid, start := base + start, limit := base + room
                                 cfg := t.rdA 0x400000 }
        { t with encodes := t.encodes ++ [new] }.perfFollow }

/-- The lines of a raw plane (R304). -/
def rawLines (p : Plane) (bytes : List Byte) : List (List Dot) :=
  let stride := if p.bytes == (rawBytes p.width p.lines).2 then p.width + ceilDiv p.width 4 else p.width
  (chunks stride p.lines bytes).map (rawLine p.width)

/-- One side reads its raw plane: the bytes, and the word offset of the first uncorrectable codeword. `forced` is a word whose
codeword the command says is uncorrectable. -/
def encodeRead (d : SideId) (j : EncodeJob) (forced : Option Nat) (x : Mem) : Mem × List Byte × Option Nat :=
  let r := memRead d j.src.off j.src.bytes 5 0xFF true [] x
  let own := r.2.bad.map (fun a => (a - j.src.off) / 4)
  match forced with
  | none => (r.1, r.2.bytes, own)
  | some w =>
    let y := (r.1.1, r.1.2.uncorrectable d ((j.src.off + 4 * w) / 64) 5 0xFF)
    (y, r.2.bytes, some (match own with
      | some v => min v w
      | none => w))

/-- What a PLANE_ENCODE comes to on the planes as they stand, with nothing changed (R175, R186, R326): status, DETAIL and payload. -/
def encodeOutcome (j : EncodeJob) (x : Mem) : Nat × Nat × List Byte :=
  let m := x.2
  let r := encodeRead m.token j none x
  let q := if m.inService m.token.other then (encodeRead m.token.other j none x).2.2 else none
  let out := encodePlane j.cfg j.src.width (rawLines j.src r.2.1)
  match r.2.2, q with
  | some w, _ => (stMemError, w, [])
  | none, some w => (stMemError, w, [])
  | none, none =>
    if j.limit - j.start < out.length then (stOutFull, out.length, [])
    else (stOk, 0, leBytes 4 (m.newId m.planes 731) ++ leBytes 4 out.length)

/-- The definition of PLANE_ENCODE's row. -/
def cmdPlaneEncode : CmdDef := { opcode := 0x0404, lenMin := 12, lenMax := 12, states := inCAPD }

/-- PLANE_ENCODE: R209, R322, R325. Under VALIDATE it answers with what it would have come to (R187). -/
def execPlaneEncode (msg : Msg) (s : State) : Host.Outcome State Fault Refusal :=
  onMem (fun img m =>
    let p := planPlaneEncode msg m
    match isValidate msg && m.accepts cmdPlaneEncode msg p, (p.act m).encodes.getLast? with
    | true, some j =>
      let r := encodeOutcome j (img, m)
      (img, m.runCmd cmdPlaneEncode msg (fun t => { planPlaneEncode msg t with status := r.1, detail := r.2.1, reply := r.2.2 }))
    | _, _ => (img, m.runCmd cmdPlaneEncode msg (planPlaneEncode msg))) s

/-- Bytes that the spec leaves undefined, from an offset up to another. -/
def Mach.anyBytes (m : Mach) (lo hi : Nat) : List Byte := (List.range (hi - lo)).map (fun i => Config.freeByte m.fresh (lo + i))

/-- Write on the sides in service, each its own bytes. -/
def writeSides (a : Nat) (onA onB : List Byte) (x : Mem) : Mem :=
  let y := if x.2.inService .a then memWrite .a a 0xFF onA [] x else x
  if x.2.inService .b then memWrite .b a 0xFF onB [] y else y

/-- The next PLANE_ENCODE starts, with the configuration of that moment. -/
def Mach.nextEncode (m : Mach) : Mach :=
  let cfg := m.rdA 0x400000
  { m with encodes := match m.encodes.tail with
      | [] => []
      | j :: t => { j with cfg := cfg } :: t }.perfFollow

/-- PLANE_ENCODE_DONE: R322 to R326. A command lost with its side (R183) ends without a plane. -/
def execPlaneEncodeDone (errA errB : Option Nat) (s : State) : Host.Outcome State Fault Refusal :=
  onMem (fun img m =>
    match m.encodes with
    | [] => (img, m)
    | j :: _ =>
      if !m.awaits.any (fun w => w.msg.tag == j.tag) then (img, m.nextEncode)
      else
        let ra := if m.inService .a then encodeRead .a j errA (img, m) else ((img, m), [], none)
        let rb := if m.inService .b then encodeRead .b j errB ra.1 else (ra.1, [], none)
        let outOf (bytes : List Byte) : List Byte := encodePlane j.cfg j.src.width (rawLines j.src bytes)
        let act := if m.token = .a then ra.2.2 else rb.2.2
        let sby := if m.token = .a then rb.2.2 else ra.2.2
        let oa := outOf ra.2.1
        let ob := outOf rb.2.1
        let out := if m.token = .a then oa else ob
        let bad := match act with
          | some w => some w
          | none => sby
        let x := rb.1
        let room := j.limit - j.start
        let any := x.2.anyBytes j.start j.limit
        match bad with
        | some w =>
          let y := writeSides j.start any any x
          (y.1, (y.2.answerTag j.tag stMemError w []).nextEncode)
        | none =>
          if room < out.length then
            let y := writeSides j.start any any x
            (y.1, (y.2.answerTag j.tag stOutFull out.length []).nextEncode)
          else
            let y := writeSides j.start oa ob x
            let m1 := y.2
            let id := m1.newId m1.planes 731
            let new : Plane := { region := j.region, off := j.start, codec := true, width := j.src.width, lines := j.src.lines
                                 bytes := out.length }
            let m2 := { m1 with planes := tabPut m1.planes id new }
            let m3 := m2.onSides Mach.inService (fun d t => t.wr d 0x40000C (t.rd d 0x40000C + 1))
            (y.1, (m3.answerTag j.tag stOk 0 (leBytes 4 id ++ leBytes 4 out.length)).nextEncode)) s

end Sys2Proof.Machine
end

