-- ==== Sys2Proof/Machine/Dma.lean ====
section
/-!
DEFINITION. The DMA channels (R282 to R303): jobs, instructions, how a MOVE advances, and every way of stopping.
-/

namespace Sys2Proof.Machine

/-! ### Channels -/

/-- The registers of a channel. -/
def dmaBase (n : Nat) : Nat := 0x200000 + 0x100 * n

/-- A channel of a side. -/
def Side.dmaOf (s : Side) (n : Nat) : DmaCh := tabGet DmaCh.init s.dma n

/-- Change a channel. -/
def Mach.modDma (m : Mach) (d : SideId) (n : Nat) (f : DmaCh → DmaCh) : Mach :=
  m.modSide d (fun s => { s with dma := tabPut s.dma n (f (s.dmaOf n)) })

/-- Set a bit of DMA_CH_STAT and raise the channel's event (R293). -/
def Mach.dmaSignal (m : Mach) (d : SideId) (n bit : Nat) : Mach := (m.put d (dmaBase n + 4) bit 1 1).raiseOn d (16 + n)

/-- DMA_CH_STAT (R303): the held bits with STATE and CAUSE. -/
def Mach.dmaStat (m : Mach) (d : SideId) (n : Nat) : Word :=
  let c := (m.side d).dmaOf n
  let st := match c.state with
    | .idle => 0
    | .running => 1
    | .waiting => 2
    | .blocked => 3
    | .stopped => 4
  putField (putField (m.rd d (dmaBase n + 4)) 29 3 st) 0 8 c.cause

/-- The completion record of a job, where it is requested (R300). -/
def Mach.dmaRecord (m : Mach) (d : SideId) (n : Nat) : Mach :=
  let c := (m.side d).dmaOf n
  match c.complete with
  | none => m
  | some a => m.emit (.hostWrite d a (leBytes 4 c.jobTag ++ leBytes 1 c.cause ++ leBytes 3 0 ++
      leBytes 4 ((c.pc + 2 ^ 64 - c.program) % 2 ^ 64) ++ leBytes 4 c.bytes))

/-- A channel stops with a fault (R298, R300): the record, FAULT, the event and the log. The rule gives the log entry no
severity. -/
def Mach.dmaStop (m : Mach) (d : SideId) (n cause : Nat) : Mach :=
  let m1 := m.modDma d n (fun c => { c with
    state := .stopped, cause := cause, fault := true, move := none
    bytes := if cause = 3 ∨ cause = 4 ∨ cause = 5 then c.bytes else 0 })
  ((m1.dmaRecord d n).dmaSignal d n 24).logFor d 0x02 n cause (Config.freeNat m.fresh 740 % 4) []

/-- One pacing token for a channel (R290). -/
def Mach.giveToken (m : Mach) (d : SideId) (n : Nat) : Mach :=
  if 65535 ≤ ((m.side d).dmaOf n).tokens then m.put d (dmaBase n + 4) 23 1 1
  else m.modDma d n (fun c => { c with tokens := c.tokens + 1 })

/-! ### Jobs (R282, R283) -/

/-- DMA_ENABLE: R282, R302. -/
def execDmaEnable (d : SideId) (ch : Nat) (enable : Bool) (s : State) : Host.Outcome State Fault Refusal :=
  onM (fun m => if m.fitted d && decide (ch < 32) then m.put d (dmaBase ch) 31 1 (b2n enable) else m) s

/-- Whether a job entry is sound (R283). -/
def jobEntryOk (e : List Byte) : Bool :=
  decide (numAt e 4 2 < 4) && numAt e 6 2 == 0 && numAt e 40 24 == 0 && numAt e 8 8 % 32 == 0 &&
    (!hasBit (numAt e 4 2) 1 || numAt e 32 8 % 16 == 0)

/-- DMA_JOB_FETCH: R152, R157, R282, R283. -/
def execDmaJobFetch (d : SideId) (ch : Nat) (entry : List Byte) (s : State) : Host.Outcome State Fault Refusal :=
  onM (fun m =>
    let ring := 16 + ch
    let c := (m.side d).dmaOf ch
    if !(m.fitted d && decide (ch < 32) && bitOf (m.rd d (dmaBase ch)) 31 && m.ringOn d ring && c.state == .idle &&
        !((m.side d).ringAux ring).stalled && decide (0 < m.ringHeld d ring)) then m
    else
      let m1 := m.ringMove d ring (m.ringHead d ring + 1)
      let ok := jobEntryOk entry
      let m2 := m1.modDma d ch (fun c => { c with
        state := .running, pc := numAt entry 8 8, program := numAt entry 8 8, progImage := hasBit (numAt entry 4 2) 0
        complete := if hasBit (numAt entry 4 2) 1 && numAt entry 32 8 % 16 == 0 then some (numAt entry 32 8) else none
        jobTag := numAt entry 0 4, b0 := numAt entry 16 8, b1 := numAt entry 24 8, b0Init := numAt entry 16 8
        b1Init := numAt entry 24 8, l0 := none, l1 := none, steps := 0, bytes := 0, move := none })
      if ok then m2 else m2.dmaStop d ch 7) s

/-! ### Instructions (R284, R285) -/

/-- After an instruction that does not wait: the progress monitor stops a channel at 4 096 (R295). -/
def Mach.dmaNext (m : Mach) (d : SideId) (n pc : Nat) : Mach :=
  let m1 := m.modDma d n (fun c => { c with pc := pc % 2 ^ 64, steps := c.steps + 1, bytes := 0 })
  if 4096 ≤ ((m1.side d).dmaOf n).steps then m1.dmaStop d n 2 else m1

/-- The first offset of an image memory range that lies outside what a channel may touch (R264, R286). -/
def Mach.outOfRange (m : Mach) (a len : Nat) : Option Nat :=
  if a < firmwareEnd then some a else if memSize m.part < a + len then some (max a (memSize m.part)) else none

/-- The instruction at a channel's PC. In host memory it is the bytes that the fetch returned; in image memory it is read there: a program
outside what a channel may touch stops it with RANGE (R264), and an uncorrectable codeword with MEM_ERROR (R274). -/
def dmaFetch (d : SideId) (n : Nat) (raw : List Byte) (x : Mem) : Mem × Option (List Byte) :=
  let c := (x.2.side d).dmaOf n
  if !c.progImage then (x, some (bytesAt raw 0 32))
  else
    match x.2.outOfRange c.pc 32 with
    | some a => ((x.1, (x.2.modDma d n (fun c => { c with faultAddr := a })).dmaStop d n 10), none)
    | none =>
      let q := memRead d c.pc 32 2 n true [] x
      match q.2.bad with
      | none => (q.1, some q.2.bytes)
      | some a => ((q.1.1, (q.1.2.modDma d n (fun c => { c with faultAddr := a, bytes := 0 })).dmaStop d n 5), none)

/-- Carry out an instruction. An opcode outside the table of R285, and a field that its layout does not allow, is a decode error. Bytes
that spell another instruction of the table are not this command's. -/
def dmaInstr (d : SideId) (n opcode : Nat) (raw : List Byte) (ok : List Byte → Bool) (act : List Byte → Mem → Mem) (x : Mem) :
    Mem :=
  let c := (x.2.side d).dmaOf n
  if !(x.2.fitted d) || c.state != .running || c.move.isSome then x
  else
    let r := dmaFetch d n raw x
    match r.2 with
    | none => r.1
    | some bs =>
      if numAt bs 0 1 = opcode ∧ ok bs then act bs r.1
      else if numAt bs 0 1 = opcode ∨ 6 < numAt bs 0 1 then (r.1.1, r.1.2.dmaStop d n 6)
      else r.1

/-- NOP: R285. -/
def execDmaNop (d : SideId) (ch : Nat) (raw : List Byte) (s : State) : Host.Outcome State Fault Refusal :=
  onMem (fun img m =>
    dmaInstr d ch 0 raw (fun _ => true) (fun _ y => (y.1, y.2.dmaNext d ch (((y.2.side d).dmaOf ch).pc + 32))) (img, m)) s

/-- Whether a LOOP's fields are in range (R289). -/
def loopOk (bs : List Byte) : Bool :=
  decide (numAt bs 1 1 < 2) && numAt bs 2 2 == 0 && numAt bs 4 4 != 0 && numAt bs 8 4 % 32 == 0 && numAt bs 12 4 == 0

/-- LOOP's effect: the pseudocode of R289. -/
def Mach.dmaLoop (m : Mach) (d : SideId) (n : Nat) (bs : List Byte) : Mach :=
  let c := (m.side d).dmaOf n
  let second := hasBit (numAt bs 1 1) 0
  let left := ((if second then c.l1 else c.l0).getD (numAt bs 4 4)) - 1
  let set (v : Option Nat) (e : DmaCh) : DmaCh := if second then { e with l1 := v } else { e with l0 := v }
  if left = 0 then (m.modDma d n (set none)).dmaNext d n (c.pc + 32)
  else
    let m1 := m.modDma d n (fun e => { set (some left) e with
      b0 := (e.b0 + numAt bs 16 8) % 2 ^ 64, b1 := (e.b1 + numAt bs 24 8) % 2 ^ 64 })
    m1.dmaNext d n (((c.pc : Int) + intAt bs 8 4) % 2 ^ 64).toNat

/-- LOOP: R289. -/
def execDmaLoop (d : SideId) (ch : Nat) (raw : List Byte) (s : State) : Host.Outcome State Fault Refusal :=
  onMem (fun img m => dmaInstr d ch 2 raw loopOk (fun bs y => (y.1, y.2.dmaLoop d ch bs)) (img, m)) s

/-- Whether a WAIT's fields are in range (R290). -/
def waitOk (bs : List Byte) : Bool :=
  numAt bs 1 3 == 0 && decide (1 ≤ numAt bs 4 4 ∧ numAt bs 4 4 ≤ 65535) && numAt bs 8 24 == 0

/-- WAIT: R290. -/
def execDmaWait (d : SideId) (ch : Nat) (raw : List Byte) (s : State) : Host.Outcome State Fault Refusal :=
  onMem (fun img m => dmaInstr d ch 3 raw waitOk (fun bs y =>
    (y.1, y.2.modDma d ch (fun c => { c with state := .waiting, need := numAt bs 4 4, steps := c.steps + 1, bytes := 0 })))
    (img, m)) s

/-- WAIT_DONE: R290. -/
def execDmaWaitDone (d : SideId) (ch : Nat) (s : State) : Host.Outcome State Fault Refusal :=
  onM (fun m =>
    let c := (m.side d).dmaOf ch
    if c.state != .waiting || decide (c.tokens < c.need) then m
    else m.modDma d ch (fun c => { c with
      state := .running, tokens := c.tokens - c.need, need := 0, pc := (c.pc + 32) % 2 ^ 64, steps := 0 })) s

/-- PACE_TIMER: R290. -/
def execDmaPaceTimer (d : SideId) (ch : Nat) (s : State) : Host.Outcome State Fault Refusal :=
  onM (fun m => if m.fitted d && decide (ch < 32) && m.get d (dmaBase ch + 8) 16 16 != 0 then m.giveToken d ch else m) s

/-- Whether a SIGNAL's fields are in range (R291). -/
def signalOk (bs : List Byte) : Bool :=
  let f := numAt bs 1 1
  decide (1 ≤ f ∧ f < 8) && decide (numAt bs 2 1 < 32) && numAt bs 3 1 == 0 && numAt bs 8 8 % 4 == 0 &&
    (hasBit f 2 || numAt bs 8 8 == 0) && numAt bs 16 16 == 0

/-- SIGNAL's effect: write, token, event, in this order (R291). -/
def Mach.dmaSignalAct (m : Mach) (d : SideId) (n : Nat) (bs : List Byte) : Mach :=
  let f := numAt bs 1 1
  let pc := ((m.side d).dmaOf n).pc
  let m1 := if hasBit f 2 then m.emit (.hostWrite d (numAt bs 8 8) (bytesAt bs 4 4)) else m
  let m2 := if hasBit f 0 then m1.giveToken d (numAt bs 2 1) else m1
  let m3 := if hasBit f 1 then m2.dmaSignal d n 25 else m2
  m3.dmaNext d n (pc + 32)

/-- SIGNAL: R291. -/
def execDmaSignal (d : SideId) (ch : Nat) (raw : List Byte) (s : State) : Host.Outcome State Fault Refusal :=
  onMem (fun img m => dmaInstr d ch 4 raw signalOk (fun bs y => (y.1, y.2.dmaSignalAct d ch bs)) (img, m)) s

/-- Whether a JUMP's fields are in range (R292). -/
def jumpOk (bs : List Byte) : Bool :=
  let f := numAt bs 1 1
  decide (f < 4) && numAt bs 2 2 == 0 && numAt bs 4 4 % 32 == 0 && numAt bs 8 8 % 32 == 0 && numAt bs 16 16 == 0 &&
    (if hasBit f 0 then numAt bs 4 4 == 0 else numAt bs 8 8 == 0)

/-- JUMP's effect (R292). -/
def Mach.dmaJump (m : Mach) (d : SideId) (n : Nat) (bs : List Byte) : Mach :=
  let f := numAt bs 1 1
  let c := (m.side d).dmaOf n
  let m1 := if hasBit f 1 then m.modDma d n (fun e => { e with b0 := e.b0Init, b1 := e.b1Init, l0 := none, l1 := none }) else m
  m1.dmaNext d n (if hasBit f 0 then numAt bs 8 8 else (((c.pc : Int) + intAt bs 4 4) % 2 ^ 64).toNat)

/-- JUMP: R292. -/
def execDmaJump (d : SideId) (ch : Nat) (raw : List Byte) (s : State) : Host.Outcome State Fault Refusal :=
  onMem (fun img m => dmaInstr d ch 5 raw jumpOk (fun bs y => (y.1, y.2.dmaJump d ch bs)) (img, m)) s

/-- END's effect: the job ends, its record is written, then its event (R292, R298, R300). -/
def Mach.dmaEnd (m : Mach) (d : SideId) (n : Nat) (bs : List Byte) : Mach :=
  let m1 := (m.modDma d n (fun c => { c with state := .idle, cause := 1, bytes := 0 })).dmaRecord d n
  if hasBit (numAt bs 1 1) 0 then m1.dmaSignal d n 28 else m1

/-- END: R292. -/
def execDmaEnd (d : SideId) (ch : Nat) (raw : List Byte) (s : State) : Host.Outcome State Fault Refusal :=
  onMem (fun img m => dmaInstr d ch 6 raw (fun bs => decide (numAt bs 1 1 < 2) && numAt bs 2 30 == 0)
    (fun bs y => (y.1, y.2.dmaEnd d ch bs)) (img, m)) s

/-! ### MOVE (R286 to R288, R294) -/

/-- Bytes a station feed holds (R288). -/
def feedSize : Nat := 262144

/-- A write of a channel into a station feed, and into the partner's (R294). -/
def Mach.feedPut (m : Mach) (d : SideId) (s : Nat) (bs : List Byte) : Mach :=
  let put (t : Mach) (d : SideId) : Mach := t.modSide d (fun x => { x with feeds := tabPut x.feeds s (tabGet [] x.feeds s ++ bs) })
  let m1 := put m d
  (if m.mgt d 29 then put m1 d.other else m1).feedArrived s

/-- A beat that may be written now: its length, where enough bytes are pending and the destination has room (R287, R288). -/
def Mach.dmaBeat (m : Mach) (d : SideId) (c : DmaCh) (mv : DmaMove) : Option Nat :=
  let at_ := if mv.dstSpace = 2 then c.bytes else mv.dst + c.bytes
  let n := min (64 - at_ % 64) (mv.length - c.bytes)
  if n = 0 ∨ mv.pending.length < n then none
  else if mv.dstSpace = 2 ∧ feedSize < (tabGet [] (m.side d).feeds mv.dst).length + n then none
  else some n

/-- Write beats in ascending order, as far as bytes and room allow. Errors met at the destination are those of the command. -/
def dmaDrain (d : SideId) (n : Nat) (errs : SymErrs) : Nat → Mem → Mem
  | 0, x => x
  | fuel + 1, x =>
    let c := (x.2.side d).dmaOf n
    match c.move with
    | none => x
    | some mv =>
      match x.2.dmaBeat d c mv with
      | none => x
      | some k =>
        let bs := mv.pending.take k
        let y : Mem :=
          if mv.dstSpace = 0 then (x.1, x.2.emit (.hostWrite d (mv.dst + c.bytes) bs))
          else if mv.dstSpace = 1 then memWriteBoth d (mv.dst + c.bytes) n bs errs [] x
          else (x.1, x.2.feedPut d mv.dst bs)
        let m1 := y.2.modDma d n (fun e => { e with
          bytes := c.bytes + k, move := some { mv with pending := mv.pending.drop k } })
        let half := (mv.length + 1) / 2
        let m2 := if mv.halfIrq && decide (c.bytes < half ∧ half ≤ c.bytes + k) then m1.dmaSignal d n 27 else m1
        dmaDrain d n errs fuel (y.1, m2)

/-- Bytes that a MOVE may have requested beyond those written (R287). -/
def moveWindow : Nat := 65536

/-- A MOVE reads on, as far as the window of R287 allows: image memory in requests of up to 4 KiB, host memory by requests whose completions
bring the bytes. An uncorrectable codeword ends its reads (R274). -/
def dmaRead (d : SideId) (n : Nat) (srcErrs : SymErrs) : Nat → Mem → Mem
  | 0, x => x
  | fuel + 1, x =>
    let c := (x.2.side d).dmaOf n
    match c.move with
    | none => x
    | some mv =>
      let top := min mv.length (c.bytes + moveWindow)
      if mv.bad.isSome || decide (top ≤ mv.asked) then x
      else if !mv.srcImage then
        (x.1, (x.2.modDma d n (fun e => { e with move := some { mv with asked := top } })).emit (.hostRead d (mv.src + mv.asked) (top - mv.asked)))
      else
        let k := min 4096 (top - mv.asked)
        let a := mv.src + mv.asked
        let r := memRead d a k 2 n true srcErrs x
        let got := match r.2.bad with
          | some b => r.2.bytes.take (b - a)
          | none => r.2.bytes
        let new : DmaMove := { mv with
          asked := mv.asked + k, pending := mv.pending ++ got, bad := r.2.bad.map (fun b => (b, 5)) }
        dmaRead d n srcErrs fuel (r.1.1, r.1.2.modDma d n (fun e => { e with move := some new }))

/-- A MOVE reads and writes in turn until it can do neither. DESIGN CHOICE: it requests the whole window before it writes, which only a MOVE
that overlaps its own source shows. -/
def dmaPump (d : SideId) (n : Nat) (errs srcErrs : SymErrs) : Nat → Mem → Mem
  | 0, x => x
  | fuel + 1, x =>
    let y := dmaRead d n srcErrs 17 x
    let z := dmaDrain d n errs (((((y.2.side d).dmaOf n).move.map DmaMove.pending).getD []).length + 1) y
    if ((z.2.side d).dmaOf n).bytes = ((x.2.side d).dmaOf n).bytes then z else dmaPump d n errs srcErrs fuel z

/-- A MOVE advances; it is BLOCKED while a full feed holds back bytes it has, and a read of its source that has failed stops it once
every beat before it is written (R274, R288, R296, R298). -/
def dmaAdvance (d : SideId) (n : Nat) (errs srcErrs : SymErrs) (x : Mem) : Mem :=
  let c := (x.2.side d).dmaOf n
  let y := dmaPump d n errs srcErrs (((c.move.map DmaMove.length).getD 0) / moveWindow + 2) x
  let e := (y.2.side d).dmaOf n
  match e.move with
  | none => y
  | some mv =>
    let at_ := if mv.dstSpace = 2 then e.bytes else mv.dst + e.bytes
    let k := min (64 - at_ % 64) (mv.length - e.bytes)
    let full := mv.dstSpace = 2 ∧ 0 < k ∧ k ≤ mv.pending.length
    if full then (y.1, y.2.modDma d n (fun z => { z with state := .blocked }))
    else match mv.bad with
      | some (a, cause) => (y.1, (y.2.modDma d n (fun z => { z with faultAddr := a })).dmaStop d n cause)
      | none => (y.1, y.2.modDma d n (fun z => { z with state := .running }))

/-- Whether a MOVE's fields are in range (R286). -/
def moveOk (bs : List Byte) : Bool :=
  decide (numAt bs 1 1 < 16) && decide (numAt bs 2 1 < 2) && decide (numAt bs 3 1 < 3) &&
    decide (1 ≤ numAt bs 4 4 ∧ numAt bs 4 4 ≤ 16777216) && numAt bs 24 8 == 0 &&
    (numAt bs 3 1 != 2 || decide (numAt bs 16 8 < 6))

/-- MOVE's start: its checks before any byte moves, then its reads. -/
def dmaMoveStart (d : SideId) (n : Nat) (bs : List Byte) (errs : SymErrs) (x : Mem) : Mem :=
  let c := (x.2.side d).dmaOf n
  let f := numAt bs 1 1
  let img := numAt bs 2 1 == 1
  let space := numAt bs 3 1
  let len := numAt bs 4 4
  let src := (numAt bs 8 8 + if hasBit f 0 then c.b0 else 0) % 2 ^ 64
  let dst := (numAt bs 16 8 + if hasBit f 1 then c.b1 else 0) % 2 ^ 64
  let far := if img && (x.2.outOfRange src len).isSome then x.2.outOfRange src len
    else if space = 1 then x.2.outOfRange dst len else none
  match far with
  | some a => (x.1, (x.2.modDma d n (fun e => { e with faultAddr := a })).dmaStop d n 10)
  | none =>
    if space = 2 ∧ stationsOf x.2.part ≤ dst then (x.1, x.2.dmaStop d n 9)
    else
      let mv : DmaMove := { src := src, dst := dst, srcImage := img, dstSpace := space, length := len, halfIrq := hasBit f 2
                            fullIrq := hasBit f 3, pending := [], bad := none }
      dmaAdvance d n [] errs (x.1, x.2.modDma d n (fun e => { e with move := some mv, bytes := 0, steps := e.steps + 1 }))

/-- MOVE: R286 to R288. -/
def execDmaMove (d : SideId) (ch : Nat) (raw : List Byte) (errs : SymErrs) (s : State) : Host.Outcome State Fault Refusal :=
  onMem (fun img m => dmaInstr d ch 1 raw moveOk (fun bs y => dmaMoveStart d ch bs errs y) (img, m)) s

/-- DMA_READ_COMPLETION: R287. What arrives after a stop is discarded (R296). -/
def execDmaReadCompletion (d : SideId) (ch : Nat) (data : List Byte) (errs : SymErrs) (s : State) :
    Host.Outcome State Fault Refusal :=
  onMem (fun img m =>
    let c := (m.side d).dmaOf ch
    match c.move with
    | none => (img, m)
    | some mv =>
      if mv.srcImage || !(c.state == .running || c.state == .blocked) then (img, m)
      else
        let got := mv.pending ++ data.take (mv.asked - c.bytes - mv.pending.length)
        dmaAdvance d ch errs [] (img, m.modDma d ch (fun e => { e with move := some { mv with pending := got } }))) s

/-- DMA_FEED_SPACE: R288. -/
def execDmaFeedSpace (d : SideId) (ch : Nat) (s : State) : Host.Outcome State Fault Refusal :=
  onMem (fun img m => if ((m.side d).dmaOf ch).state == .blocked then dmaAdvance d ch [] [] (img, m) else (img, m)) s

/-- MOVE_COMPLETE: R287. -/
def execDmaMoveComplete (d : SideId) (ch : Nat) (s : State) : Host.Outcome State Fault Refusal :=
  onM (fun m =>
    let c := (m.side d).dmaOf ch
    match c.move with
    | none => m
    | some mv =>
      if c.bytes < mv.length then m
      else
        let m1 := m.modDma d ch (fun e => { e with move := none, state := .running, pc := (e.pc + 32) % 2 ^ 64, steps := 0 })
        let m2 := m1.wr d (dmaBase ch + 0x40) (m1.rd d (dmaBase ch + 0x40) + 1)
        if mv.fullIrq then m2.dmaSignal d ch 26 else m2) s

/-! ### Stops (R296 to R299) -/

/-- Whether a channel waits for a host read: a program fetch, or the source of a MOVE. -/
def DmaCh.hostWait (c : DmaCh) : Bool :=
  (c.state == .running || c.state == .blocked) &&
    (match c.move with
     | some mv => !mv.srcImage && mv.bad.isNone && decide (c.bytes + mv.pending.length < mv.length)
     | none => !c.progImage)

/-- A host read of a channel fails (R296). A MOVE that a full feed blocks writes the beats before the failed request first. -/
def Mach.dmaReadFails (m : Mach) (d : SideId) (n cause addr : Nat) : Mach :=
  let c := (m.side d).dmaOf n
  if !c.hostWait then m
  else
    let stop := (m.modDma d n (fun e => { e with faultAddr := addr, bytes := if e.move.isSome then e.bytes else 0 })).dmaStop d n cause
    match c.move with
    | none => stop
    | some mv =>
      let left := mv.pending.take (addr - mv.src - c.bytes)
      if c.state == .blocked && decide (min (64 - c.bytes % 64) (mv.length - c.bytes) ≤ left.length) then
        m.modDma d n (fun e => { e with move := some { mv with pending := left, bad := some (addr, cause) } })
      else stop

/-- BUS_TIMEOUT: R296. -/
def execDmaBusTimeout (d : SideId) (ch : Nat) (addr : Nat) (s : State) : Host.Outcome State Fault Refusal :=
  onM (fun m => m.dmaReadFails d ch 3 addr) s

/-- HOST_ERROR: R296. -/
def execDmaHostError (d : SideId) (ch : Nat) (addr : Nat) (s : State) : Host.Outcome State Fault Refusal :=
  onM (fun m => m.dmaReadFails d ch 4 addr) s

/-- A link reset fails every outstanding host read of a side (R296); where the failed request lies is not told. -/
def Mach.dmaLinkLost (m : Mach) (d : SideId) : Mach :=
  (m.side d).dma.foldl (fun t e =>
    let c := (t.side d).dmaOf e.1
    let at_ := match c.move with
      | some mv => mv.src + c.bytes + Config.freeNat m.fresh (750 + e.1) % (mv.length - c.bytes + 1)
      | none => c.pc
    t.dmaReadFails d e.1 4 at_) m

/-- A channel stops by DISABLE (R297). What the registers and the destination of a MOVE in progress then hold is not told. -/
def dmaDisable (d : SideId) (ch : Nat) (x : Mem) : Mem :=
  let m := x.2
  let c := (m.side d).dmaOf ch
  let m1 := (m.put d (dmaBase ch) 31 1 0).modDma d ch (fun e => { e with tokens := 0 })
  if c.state == .idle || c.state == .stopped then (x.1, m1)
  else
    let any (i : Nat) : Nat := Config.freeNat m.fresh (790 + i) % 2 ^ 64
    let m2 := m1.modDma d ch (fun e => { e with
      state := .idle, cause := 8, move := none, pc := any 0, bytes := any 1 % 2 ^ 32, l0 := some (any 2 % 2 ^ 32)
      l1 := some (any 3 % 2 ^ 32), b0 := any 4, b1 := any 5 })
    match c.move with
    | some mv =>
      if mv.dstSpace = 1 then memWriteBoth d mv.dst ch (m2.anyBytes mv.dst (mv.dst + mv.length)) [] [] (x.1, m2) else (x.1, m2)
    | none => (x.1, m2)

/-- DMA_DISABLE: R297. -/
def execDmaDisable (d : SideId) (ch : Nat) (s : State) : Host.Outcome State Fault Refusal :=
  onMem (fun img m => if m.fitted d && decide (ch < 32) then dmaDisable d ch (img, m) else (img, m)) s

/-- A channel leaves a fault stop (R299). -/
def Mach.dmaResume (m : Mach) (d : SideId) (ch : Nat) : Mach :=
  if ((m.side d).dmaOf ch).state == .stopped then
    m.modDma d ch (fun c => { c with state := .idle, cause := 0, fault := false })
  else m

/-- DMA_RESUME: R299. -/
def execDmaResume (d : SideId) (ch : Nat) (s : State) : Host.Outcome State Fault Refusal := onM (fun m => m.dmaResume d ch) s

end Sys2Proof.Machine
end

