-- ==== Sys2Proof/Machine/Stations.lean ====
section
/-!
DEFINITION. What a station does with the lines of its pages, whatever paces them (R28, R29, R35, R259, R260, R395, R399, R404,
R422, R426): its exposure rate, where a page lies on the line grid, which lines are blanked, what is marked on the panels of an
exposed line, and the lines of an LED head.
-/

namespace Sys2Proof.Machine

/-! ### The job's channel and the station's rate (R88, R259) -/

/-- The encoder channel of the armed job. -/
def Mach.jobChan (m : Mach) : Nat := ((tabFind m.jobs m.armed).map Job.encoder).getD 0

/-- Whether a station belongs to the job that is armed or draining. -/
def Mach.inJob (m : Mach) (s : Nat) : Bool := engLive m.eng && (m.stnOf s).job != 0

/-- Whether a station runs in laser mode (R434). -/
def Mach.isLaser (m : Mach) (s : Nat) : Bool := m.getA (pxcBase s) 30 2 == 1

/-- Whether a station runs in LED mode. -/
def Mach.isLed (m : Mach) (s : Nat) : Bool := m.getA (pxcBase s) 30 2 == 2

/-- A, the lines that a sweep of a station advances. -/
def Mach.advance (m : Mach) (s : Nat) : Nat := setAdvance (m.stnSet s)

/-- E_s (R259), in lines/s. -/
def Mach.exposureRate (m : Mach) (s : Nat) : Rat :=
  let job := match tabFind m.jobs m.armed with
    | some j => if j.limited then 70866 else j.maxRate
    | none => 0
  let own : Rat :=
    if m.isLed s then ((m.rdA (scbBase s + 0x24)).toNat : Rat)
    else
      let rpm16 := (signedOf 32 (m.rdA (mdrBase (8 + s) + 0xC)).toNat).natAbs
      (rpm16 * m.usedFacets s (m.stnSet s) * m.advance s : Nat) / 960
  min (job : Rat) own

/-- ENC_SPEED of the job's channel, in lines/s. -/
def Mach.webSpeed (m : Mach) : Rat := (signedOf 32 (m.rdA (encBase m.jobChan + 0x20)).toNat : Rat) / 16

/-- Whether R_s exceeds 1 by more than some thousandths. -/
def Mach.rateOver (m : Mach) (s tol : Nat) : Bool :=
  decide (m.exposureRate s * (1000 + tol : Nat) / 1000 < m.webSpeed)

/-- OVS_LAG of a station. -/
def ovsLag (s : Nat) : Nat := 0xD03910 + 4 * s

/-- The position at which a page's first line lies on a station (R33). -/
def Page.startOn (k : Page) (s : Nat) : Int := k.pos + ((tabFind k.prog s).map StnPage.offset).getD 0

/-! ### The line grid (R417, R422) -/

/-- Change a page's progress on a station. -/
def Mach.modProg (m : Mach) (key s : Nat) (f : StnPage → StnPage) : Mach :=
  m.modPage key (fun k => { k with prog := tabUpd k.prog s f })

/-- A page's progress on a station. -/
def Mach.progOf (m : Mach) (key s : Nat) : Option (Page × StnPage) :=
  (tabFind m.pages key).bind (fun k => (tabFind k.prog s).map (fun q => (k, q)))

/-- The grid line after which nothing of the pages placed so far lies, and whether one of them still runs. -/
def Mach.gridEnd (m : Mach) (s : Nat) : Option Int × Bool :=
  m.pages.foldl (fun r e =>
    match tabFind e.2.prog s with
    | some q =>
      match q.grid with
      | some g =>
        let last := g + (e.2.length : Int) - 1
        (some (match r.1 with
          | some v => max v last
          | none => last), r.2 || !q.ended)
      | none => r
    | none => r) ((m.stnOf s).lastLine, false)

/-- Whether a page on a station waits for its place on the grid. -/
def Page.unplaced (k : Page) (s : Nat) : Bool :=
  match tabFind k.prog s with
  | some q => q.grid.isNone
  | none => false

/-- Place one page on the line grid of a laser station (R422): in a gap of at least 8A lines the grid moves at the end of the page
before; with a shorter gap it stays. LED lines follow the position itself (R399). -/
def Mach.placePage (m : Mach) (s key : Nat) : Mach :=
  match tabFind m.pages key with
  | none => m
  | some k =>
    let at_ := k.startOn s
    if m.isLed s then m.modProg key s (fun q => { q with grid := some (at_ / 64) })
    else
      let g : Int := (m.stnOf s).grid
      let n0 := (at_ - g + 32) / 64
      let e := m.gridEnd s
      let wide := match e.1 with
        | some last => decide (8 * (m.advance s : Int) ≤ n0 - last)
        | none => true
      if !wide then m.modProg key s (fun q => { q with grid := some n0 })
      else if e.2 then m
      else
        let g' := at_ % 64
        (m.modStn s (fun t => { t with grid := g'.toNat })).modProg key s (fun q => { q with grid := some ((at_ - g') / 64) })

/-- Place the pages of a station in the order of their hits; a page that waits holds those behind it. -/
def Mach.placePages (m : Mach) (s : Nat) : Mach :=
  (tabKeys (m.pages.filter (fun e => e.2.unplaced s))).foldl (fun t key =>
    if t.pages.any (fun e => decide (e.1 < key) && e.2.unplaced s) then t else t.placePage s key) m

/-! ### Lines fit to expose (R29, R35, R350, R360, R361, R404) -/

/-- The buffered line that holds a page line of a station. -/
def Mach.bufOf (m : Mach) (s key y : Nat) : Option BufLine :=
  (m.stnOf s).buffer.find? (fun l => l.page == key && l.y == y / m.fine s)

/-- Whether a page line is blanked on a station before it reaches the beam formatter. -/
def Mach.rowBlank (m : Mach) (s key y : Nat) : Bool :=
  match m.progOf key s with
  | none => true
  | some (k, q) =>
    k.skipped || (match q.blankFrom with
      | some b => decide (b ≤ y)
      | none => false) || m.fieldsBlank k s y || ((m.bufOf s key y).map BufLine.blank).getD false

/-- The page lines whose dots a grid line takes through the bow (R426). -/
def Mach.bowRows (m : Mach) (s len y : Nat) : List Nat :=
  (m.bowShifts s).filterMap (fun d => let r := (y : Int) + d
    if 0 ≤ r ∧ r < len then some r.toNat else none)

/-- A line of a page is blanked or lost on a station (R35, R395): once. -/
def Mach.badLine (m : Mach) (s key y flags : Nat) (row : Bool) : Mach :=
  match m.progOf key s with
  | none => m
  | some (_, q) =>
    if q.ended || decide (y < q.next) || q.bad.contains y then m
    else (if row then m.blankBy [0] s key y y flags else m.blank s key y y flags).modProg key s (fun r =>
      { r with bad := r.bad ++ [y] })

/-- A page whose station reads no plane has its lines screened as the formatter takes them (R317 step 4, R27). -/
def Mach.drawLines (m : Mach) (s key upTo : Nat) : Nat → Mach
  | 0 => m
  | fuel + 1 =>
    match m.progOf key s with
    | none => m
    | some (k, q) =>
      if k.planes.getD s 0 != 0 || k.skipped || decide (k.length ≤ q.made) || decide (upTo < q.made) then m
      else (m.bufferLine s key (q.made / m.fine s) [] false).drawLines s key upTo fuel

/-- Judge one line of a page for exposure on a station. -/
def Mach.judgeLine (m0 : Mach) (s key : Nat) : Mach :=
  match m0.progOf key s with
  | none => m0
  | some (k, q) =>
    let y := q.judged
    let m := m0.drawLines s key (y + 4) (y + 5)
    let next (t : Mach) : Mach := t.modProg key s (fun r => { r with judged := y + 1 })
    if m.rowBlank s key y then next ((m.endRun s).badLine s key y 0 true)
    else if (m.stnOf s).dark then next ((m.faultRun s 6 7 2 [k.pageNo, y]).badLine s key y 0 false)
    else if m.bitA (scbBase s) 26 then
      next (((m.faultRun s 6 5 3 [k.pageNo, y]).blankRest s key y).badLine s key y 0 false)
    else if (m.bowRows s k.length y).any (fun r => !m.rowBlank s key r && (m.bufOf s key r).isNone) then
      next (((m.faultRun s 6 1 2 [k.pageNo, y]).wrB (decBase s + 0x28) 0).badLine s key y fStarved false)
    else next (m.endRun s)

/-- Judge the lines of a page up to a page line. -/
def Mach.judgePage (m : Mach) (s key : Nat) (upTo : Int) : Nat → Mach
  | 0 => m
  | fuel + 1 =>
    match m.progOf key s with
    | none => m
    | some (k, q) =>
      if q.ended || decide (k.length ≤ q.judged) || decide (upTo < q.judged) then m
      else (m.judgeLine s key).judgePage s key upTo fuel

/-- Judge the lines of every page of a station up to a grid line. -/
def Mach.judge (m : Mach) (s : Nat) (top : Int) : Mach :=
  m.pages.foldl (fun t e =>
    match t.progOf e.1 s with
    | some (k, q) =>
      match q.grid with
      | some g => t.judgePage s e.1 (top - g) k.length
      | none => t
    | none => t) m

/-! ### What an exposed line marks (R225, R236, R237, R262) -/

/-- The flags that a line exposed now gives its panels. -/
def Mach.exposureFlags (m : Mach) (s : Nat) : Nat :=
  let lost := (m.encOf m.jobChan).lostAt
  let recent := match lost with
    | some t => decide (m.now ≤ t + 1000)
    | none => false
  let differs := [0, 1, 2, 3].any (fun n => m.bitA (encBase n + 0x24) 27)
  (if m.bitA 0xD03904 s then fOverspeed else 0) ||| (if differs || recent then fDisagree else 0)

/-- Whether SUB_OFFSET_NEXT of a channel is frozen (R235): by loss of signal, disagreement or an index mismatch. -/
def Mach.subFrozen (m : Mach) (n : Nat) : Bool :=
  let b := m.backupOf n
  let los (c : Nat) : Bool := m.bitA (encBase c + 0x24) 28
  los n || los b || m.bitA (encBase n + 0x24) 27 || (m.encOf n).indexBad || (m.encOf b).indexBad

/-- Lines of a page are exposed on a station. -/
def Mach.flagExposed (m : Mach) (s key lo hi : Nat) : Mach :=
  let fl := m.exposureFlags s
  let shifts := m.bowShifts s
  let m1 := if fl = 0 then m else m.modPage key (fun k => k.flagBow shifts lo hi fl)
  let frozen := [0, 1, 2, 3].filter (fun n => m1.bitA (encBase n) 19 && m1.subFrozen n)
  if frozen.isEmpty then m1
  else m1.modPage key (fun k => { k with panels := k.panels.map (fun p =>
    if shifts.any (fun d => p.touches ((lo : Int) + d).toNat ((hi : Int) + d).toNat) then { p with doubt := frozen.foldl setBitN p.doubt }
    else p) })

/-- DERATE, SCB_STROBE and SCB_LED_LIMIT follow the lines exposed (R400, R402, R406). -/
def Mach.showDerate (m : Mach) (s : Nat) (on : Bool) : Mach :=
  let m1 := m.setB (scbBase s) 28 on
  if m.isLed s then
    (m1.wrB (scbBase s + 0x28) (BitVec.ofNat 32 (65536 * setStrobe (m.stnSet s) + strobeEff (m.stnSet s) on))).wrB
      (scbBase s + 0x24) (BitVec.ofNat 32 (ledLimit (m.stnSet s) on))
  else m1

/-- The decoder's lead at an exposed line (R331), and the derate of the line. -/
def Mach.lineShown (m : Mach) (s key y : Nat) : Mach :=
  match m.progOf key s with
  | none => m
  | some (k, q) =>
    let lead := q.made / m.fine s - y / m.fine s - 1
    let r := decBase s + 0x28
    let m1 := if k.planes.getD s 0 = 0 then m
              else m.wrB r (BitVec.ofNat 32 (min (m.rdA r).toNat (min 0xFFFF lead)))
    m1.showDerate s (((m1.bufOf s key y).map BufLine.derate).getD (m1.bitA (scbBase s) 28))

/-- The levels of a grid line: each segment takes the dots of the row that the bow gives it; a blanked row and what lies outside
the page are level 0 (R426). An empty list stands for level 0 on every dot. -/
def Mach.gridLevels (m : Mach) (s key y : Nat) : List Nat :=
  let row (r : Int) : List Nat :=
    if r < 0 || m.rowBlank s key r.toNat then [] else ((m.bufOf s key r.toNat).map BufLine.levels).getD []
  if m.bowShifts s = [0] then row y
  else
    (List.range 64).flatMap (fun k =>
      let cut := (((row ((y : Int) + m.bowAt s k)).drop (384 * k)).take 384)
      cut ++ List.replicate (min 384 (24567 - 384 * k) - cut.length) 0)

/-- Buffered lines that no line to come can take are given up (R28). -/
def Mach.dropBuffer (m : Mach) (s : Nat) : Mach :=
  let f := m.fine s
  m.modStn s (fun t => { t with
    buffer := t.buffer.filter (fun l => match m.progOf l.page s with
      | some (_, q) => decide (q.next < (l.y + 1) * f + 4)
      | none => false) })

/-! ### LED lines (R388, R398 to R401) -/

/-- The page line that an LED station exposes next, with the position at which it begins. -/
def Mach.ledNext (m : Mach) (s : Nat) : Option (Nat × Nat × Int) :=
  (m.pages.find? (fun e => match tabFind e.2.prog s with
    | some q => q.grid.isSome && !q.ended
    | none => false)).bind (fun e =>
      (tabFind e.2.prog s).map (fun q => (e.1, q.next, e.2.startOn s + 64 * (q.next : Int))))

/-- Whether beams and strobes are out of their disabled state (R428, R432, R602): enabled since the laser loop closed, and the power
stages not in the safe state. -/
def Mach.mayEmit (m : Mach) : Bool := m.ilk.laserEnabled && !m.safe

/-- A plane of the LED line in progress latches and its strobe starts; a line that HEAD_SHUTDOWN blanks has none (R404). -/
def Mach.ledStrobe (m : Mach) (s key y plane : Nat) (line : Int) : Mach :=
  let bad := ((m.progOf key s).map (fun r => r.2.bad.contains y)).getD true
  if !m.mayEmit || (bad && m.bitA (scbBase s) 26) then m
  else
    let set := m.stnSet s
    let levels := if bad then [] else m.gridLevels s key y
    m.emit (.strobe s line plane (laneBits set plane levels)
      (strobeEff set (m.bitA (scbBase s) 28) * 2 ^ plane))

/-- The LED line in progress ends. -/
def Mach.ledFinish (m : Mach) (s : Nat) : Mach :=
  match m.ledNext s with
  | none => m.modStn s (fun t => { t with ledLine := none, ledPlane := 0 })
  | some (key, y, _) =>
    let m1 := (m.modStn s (fun t => { t with ledLine := none, ledPlane := 0 })).rampLines s 1
    (m1.passLines s key (y + 1)).dropBuffer s

/-- The next line of an LED station begins once its position is reached and no line is in progress (R31). While the web is faster than E_s,
and until the station has caught up with it (R260), its line clock is held to E_s: when it comes to the line is not told, and OVS_LAG holds
what the web is ahead by. -/
def Mach.ledTry (m : Mach) (s : Nat) : Nat → Mach
  | 0 => m
  | fuel + 1 =>
    match m.ledNext s with
    | none => m.wrB (ovsLag s) 0
    | some (key, y, at_) =>
      let pos := m.encPos m.jobChan
      if (m.stnOf s).ledLine.isSome then m
      else if pos < at_ then m.wrB (ovsLag s) 0
      else
        let clamped := m.rateOver s 0 || m.rdA (ovsLag s) != 0
        let m1 := if clamped then m.wrB (ovsLag s) (BitVec.ofNat 32 (pos - at_).toNat) else m
        if clamped && Config.freeBool m.fresh (300 + s) then m1
        else
          let line := (match m.progOf key s with
            | some (_, q) => q.grid.getD 0
            | none => 0) + (y : Int)
          let m2 := if y = 0 then (m1.modStn s (fun t => { t with grid := (at_ % 64).toNat })).startPage s key else m1
          let m3 := (((m2.judge s line).flagExposed s key y y).lineShown s key y).ledStrobe s key y 0 line
          let m4 := m3.modStn s (fun t => { t with ledLine := some line, ledPlane := 0 })
          if setPlanes (m4.stnSet s) ≤ 1 then (m4.ledFinish s).ledTry s fuel else m4

/-- LED_PLANE_LATCH: R388, R398, R399. After the last plane the line ends, and a line that waits begins. -/
def execLedPlaneLatch (station plane : Nat) (s : State) : Host.Outcome State Fault Refusal :=
  onM (fun m =>
    let t := m.stnOf station
    match t.ledLine, m.ledNext station with
    | some line, some (key, y, _) =>
      if !m.inJob station || plane != t.ledPlane + 1 || decide (setPlanes t.set ≤ plane) then m
      else
        let m1 := (m.ledStrobe station key y plane line).modStn station (fun u => { u with ledPlane := plane })
        if plane + 1 = setPlanes t.set then (m1.ledFinish station).ledTry station 8 else m1
    | _, _ => m) s

/-- Every LED station looks for a line to begin, and laser stations for pages to place. -/
def Mach.stationsMove (m : Mach) : Mach :=
  (List.range 6).foldl (fun t s =>
    if !t.inJob s then t
    else
      let t1 := t.placePages s
      if t1.isLed s then t1.ledTry s 8 else t1) m

end Sys2Proof.Machine
end

