-- ==== Sys2Proof/Machine/Hits.lean ====
section
/-!
DEFINITION. Compare hits and the starts of pages (R33, R38, R208, R243 to R246, R349 to R355, R369, R403, R607, R641): how a hit
takes its descriptor, its serials and its feed entries, and what refuses it.
-/

namespace Sys2Proof.Machine

/-! ### Counters (R351 to R353) -/

/-- A counter as it leaves the factory (R352); the value of NEXT is not given. -/
def Counter.init : Counter :=
  { next := 0, consumed := none, committed := none, epoch := 1, limit := none, exhausted := false, low := false }

/-- A counter. -/
def Mach.counterOf (m : Mach) (c : Nat) : Counter := tabGet Counter.init m.counters c

/-- Change a counter. -/
def Mach.modCounter (m : Mach) (c : Nat) (f : Counter → Counter) : Mach :=
  { m with counters := tabPut m.counters c (f (m.counterOf c)) }

/-- The last value a counter can give. -/
def Counter.bound (c : Counter) : Nat := min (c.limit.getD 0xFFFFFFFFFFFFFFFE) 0xFFFFFFFFFFFFFFFE

/-- Whether a counter can give `k` values within its limit (R353). -/
def Counter.can (c : Counter) (k : Nat) : Bool := !c.exhausted && decide (c.next + k ≤ c.bound + 1)

/-- One value of a counter is taken (R351). -/
def Mach.takeValue (m : Mach) (c : Nat) : Mach × Taken :=
  let x := m.counterOf c
  (m.modCounter c (fun y => { y with next := x.next + 1, consumed := some x.next }), ⟨c, x.next, x.epoch⟩)

/-- A counter with a limit that runs low raises event 78 once (R353). -/
def Mach.counterLow (m : Mach) (c : Nat) : Mach :=
  let x := m.counterOf c
  if x.low || x.limit.isNone || decide (65536 ≤ x.bound + 1 - x.next) then m
  else ((((m.modCounter c (fun y => { y with low := true })).cmpFault 5).raise 78).logM 0x05 noInst 0x0005 1 [c])

/-! ### Panels of a page (R32, R338, R350) -/

/-- A panel that has taken nothing. -/
def Panel.fresh (index tpl : Nat) : Panel :=
  { index := index, x := 0, y := 0, height := 0, tpl := tpl, rejOut := 0xFF, flags := 0, final := false, taken := [],
    feed := none, feedMiss := false, compose := .none, missed := 0, failed := [], doubt := 0, data := [] }

/-- A panel of a layout. -/
def layoutPanel (t : List Byte) (lay i : Nat) : Panel :=
  let o := panelAt t lay i
  { Panel.fresh i (numAt t (o + 2) 2) with
    x := numAt t o 2, y := numAt t (o + 4) 4, height := numAt t (o + 8) 4, rejOut := numAt t (o + 12) 1 }

/-- The panels of a page with whether each takes a feed entry. A template-less page takes one for each of its panels. -/
def Mach.pagePanels (m : Mach) (set lay n : Nat) : List (Panel × Bool) :=
  if set = 0 then (List.range n).map (fun i => (Panel.fresh i 0x10000, true))
  else
    let t := m.tplBytes set
    (List.range n).map (fun i => (layoutPanel t lay i, hasBit (numAt t (panelAt t lay i + 13) 1) 0))

/-- The counters that a panel takes values of. -/
def Panel.counters (p : Panel) (t : List Byte) : List Nat :=
  if p.tpl < tplTemplates t then templateCounters t p.tpl else []

/-- A panel takes its counter values and its feed entry (R350, R351). -/
def Mach.fillPanel (m : Mach) (t : List Byte) (p : Panel) (wants : Bool) : Mach × Panel :=
  let r := (p.counters t).foldl (fun (a : Mach × List Taken) c =>
    let v := a.1.takeValue c
    (v.1, a.2 ++ [v.2])) (m, [])
  let q := { p with taken := r.2 }
  if !wants then (r.1, q)
  else match r.1.feed with
    | [] => (r.1, { q with feedMiss := true })
    | e :: rest =>
      let q1 := { q with feed := some e }
      ({ r.1 with feed := rest },
       if p.tpl = 0x10000 then { q1 with y := e.y, height := e.height, rejOut := e.rejOut } else q1)

/-- The panels of a page take what they take, in panel order. -/
def Mach.fillPanels (m : Mach) (t : List Byte) (ps : List (Panel × Bool)) : Mach × List Panel :=
  ps.foldl (fun (a : Mach × List Panel) p =>
    let r := a.1.fillPanel t p.1 p.2
    (r.1, a.2 ++ [r.2])) (m, [])

/-! ### The decision on a page start (R208, R354) -/

/-- JRNL_CFG.WARN (R374). -/
def Mach.journalWarn (m : Mach) : Nat := max 64 (m.getA 0x508004 0 15)

/-- The journal falls below WARN: event 81 once (R369). -/
def Mach.checkWarn (m : Mach) : Mach :=
  if m.freeSlots < m.journalWarn then
    if m.records.warned then m
    else (({ m with records := { m.records with warned := true } }).raise 81).logM 0x05 noInst 0x0008 1 [m.freeSlots]
  else { m with records := { m.records with warned := false } }

/-- The descriptor that serves the next hit of a compare unit (R208). -/
def Job.descFor (j : Job) (u : Nat) : Option PageDesc := j.queue.find? (fun d => d.compare == u)

/-- A descriptor has served a hit: REPEAT n serves n of them. -/
def Job.serve (j : Job) (page : Nat) : Job :=
  { j with queue := j.queue.filterMap (fun d =>
      if d.pageNo = page then (if d.served + 1 = d.rep then none else some { d with served := d.served + 1 }) else some d) }

/-- A hit without a descriptor (R208). -/
def Mach.queueEmpty (m : Mach) (stations : Nat) : Mach :=
  (bitsOf stations 6).foldl (fun t s => t.imagingFault s 6 3 2 []) m

/-- What refuses a page start before consumption: nothing, the feed, a counter, or the journal (R354 steps 3 to 5). -/
inductive HitCheck where
  | go
  | feedEmpty
  | exhausted (cs : List Nat)
  | noRoom
  deriving DecidableEq, Repr

/-- Steps 3 to 5 of R354. -/
def Mach.hitCheck (m : Mach) (set : Nat) (ps : List (Panel × Bool)) : HitCheck :=
  let t := m.tplBytes set
  let need := ps.flatMap (fun p => p.1.counters t)
  let out := need.eraseDups.filter (fun c => !(m.counterOf c).can (need.filter (· == c)).length)
  if set = 0 && decide (m.feed.length < ps.length) then .feedEmpty
  else if !out.isEmpty then .exhausted out
  else if m.records.failed || decide (m.freeSlots < ps.length + 64) then .noRoom
  else .go

/-- A refusal at steps 3 to 5: no page, no serial. -/
def Mach.hitRefused (m : Mach) (stations : Nat) (c : HitCheck) : Mach :=
  let mark (t : Mach) (code : Nat) : Mach := (bitsOf stations 6).foldl (fun u s => u.imagingMark s 5 code) t
  match c with
  | .go => m
  | .feedEmpty => mark (((m.cmpFault 3).raise 79).logM 0x05 noInst 0x0006 2 []) 6
  | .exhausted cs =>
    let m1 := cs.foldl (fun t x => t.modCounter x (fun y => { y with exhausted := true })) m
    mark (((m1.cmpFault 4).raise 78).logM 0x05 noInst 0x0004 3 (cs.map (fun (x : Nat) => (x : Int)))) 4
  | .noRoom => ((m.raise 81).logM 0x05 noInst 0x0009 3 [m.freeSlots]).faultEngine 6

/-- The fields of a panel that hold a FEED segment. -/
def Panel.feedFields (p : Panel) (t : List Byte) : List Nat :=
  (p.fields t).filter (fun f => (fieldSegs t f).any (fun g => segKind t g == 5))

/-- What the feed did to a panel of a page that has started (R350): a missing entry, or one that reaches past the page. -/
def Mach.feedFault (m : Mach) (key i : Nat) : Mach :=
  match m.panelOf key i with
  | none => m
  | some (k, p) =>
    let t := m.tplBytes k.tplSet
    let fs := p.feedFields t
    let past := match p.feed with
      | some e => decide (k.length < e.y + e.height)
      | none => false
    if p.feedMiss then
      let m1 := ((m.cmpFault 3).raise 79).logM 0x05 i 0x0006 2 []
      let ss := (bitsOf k.stations 6).filter (fun s => fs.any (fun f => hasBit (fieldStations t f) s))
      ss.foldl (fun u s => u.imagingMark s 5 6) (fs.foldl (fun u f => u.failField key i f .feed) m1)
    else if !past then m
    else if p.tpl = 0x10000 then
      let m1 := m.modPanel key i (fun q => { q.mark fField with failed := [0] })
      (bitsOf k.stations 6).foldl (fun u s => u.imagingMark s 5 3) (((m1.cmpFault 2).raise 77).logM 0x05 i 0x0003 2 [])
    else fs.foldl (fun u f => u.failField key i f .data) m

/-- The decoders of a page's stations that read a plane take it (R317), refused and skipped pages too: their state goes on. -/
def Mach.feedDecoders (m : Mach) (key : Nat) (k : Page) : Mach :=
  (bitsOf k.stations 6).foldl (fun t s =>
    let id := k.planes.getD s 0
    if id = 0 then t
    else
      let new : DecPage := { key := key, pageNo := k.pageNo, plane := id,
                             src := if id = 0xFFFFFFFF then none else tabFind t.planes id, start := k.startOn s,
                             lines := ceilDiv k.length (t.fine s) }
      t.modDec s (fun d => match d.state, d.queue with
        | .idle, q => { d with queue := insertDec new q }
        | _, [] => { d with queue := [new] }
        | _, h :: q => { d with queue := h :: insertDec new q })) m

/-- What refuses a page at step 7, station by station: unit and code of the cause (R38, R403, R607, R641). -/
def Mach.startBar (m : Mach) (key : Nat) (k : Page) (s : Nat) : Option (Nat × Nat) :=
  let ovr := m.pages.any (fun e => e.1 != key && e.2.job == k.job && hasBit e.2.stations s &&
    decide (k.startOn s < e.2.startOn s + 64 * (e.2.length : Int)))
  if ovr then some (6, 2)
  else if m.bitA (scbBase s) 27 || m.bitA (scbBase s) 26 then some (6, 4)
  else if m.bitA 0x10100 s then some (0x0F, 0x0606)
  else if m.bitA 0x10100 (8 + s) then some (0x0F, 0x0707)
  else none

/-- The page goes into flight (R33, R354 step 8): composition begins for its panels with fields. -/
def Mach.flyPage (m : Mach) (key : Nat) : Mach :=
  let m1 := m.modPage key (fun k =>
    let t := m.tplBytes k.tplSet
    { k with panels := k.panels.map (fun p => if (p.fields t).isEmpty then p else { p with compose := .queued }) })
  if m1.eng = .armed then m1.setEng .printing else m1

/-- A page that a skipped pitch starts (R246): it is committed with every line blanked. -/
def Mach.skipPage (m : Mach) (key : Nat) : Mach :=
  (m.modPage key (fun k => { k.flagAll (fSkipped ||| fBlanked) with skipped := true })).commitPage key

/-- A page is refused at its trigger (R38): its panels are VOID. -/
def Mach.refusePage (m : Mach) (key : Nat) (bars : List (Nat × Nat × Nat)) : Mach :=
  let m1 := bars.foldl (fun t b => t.imagingFault b.1 b.2.1 b.2.2 2 []) m
  let m2 := (m1.modPage key (fun k => k.flagAll fRefused)).finalAll key
  { m2 with pages := tabErase m2.pages key }.publish

/-- A page start at a position (R33, R354), or at a skipped pitch (R246). None is honoured in DRAINING (R189), after input loss
(R370) or in a thermal shutdown (R572). -/
def Mach.pageStart (m : Mach) (u stations : Nat) (pos : Int) (skipped : Bool) : Mach :=
  if m.eng = .draining || m.power.phase != .running then m
  else match tabFind m.jobs m.armed with
    | none => m.queueEmpty stations
    | some j =>
      match j.descFor u with
      | none => m.queueEmpty stations
      | some d =>
        let set := if d.tplSet = 0 then j.tplSet else d.tplSet
        let ps := m.pagePanels set d.layout d.panels
        match m.hitCheck set ps with
        | .go =>
          let t := m.tplBytes set
          let r := m.fillPanels t ps
          let cs := (ps.flatMap (fun p => p.1.counters t)).eraseDups
          let ss := bitsOf stations 6
          let key := m.nextPage
          let low := m.getA 0x500004 0 14
          let prog : Tab StnPage := ss.map (fun s =>
            (s, { offset := signedOf 32 (m.rdA (0xD03800 + 4 * s)).toNat, grid := none, made := 0, judged := 0, next := 0,
                  bad := [], blankFrom := none, started := false, ended := false }))
          let new : Page := m.withData t
            { job := m.armed, pageNo := d.pageNo, pageSeq := j.pageSeq + 1, compare := u, pos := pos, time := m.now,
              length := d.length, stations := stations, planes := d.planes, tplSet := set, layout := d.layout,
              committed := false, skipped := false, lots := m.lots, prog := prog, panels := r.2 }
          let m1 := { r.1 with
            nextPage := key + 1, pages := tabPut r.1.pages key new
            jobs := tabUpd r.1.jobs m.armed (fun x =>
              { x.serve d.pageNo with pageSeq := x.pageSeq + 1, triggered := x.triggered + 1 }) }
          let m2 := (cs.foldl (fun t c => t.counterLow c) m1).checkWarn
          let m3 := if decide (low ≤ m.feed.length) && decide (m2.feed.length < low) then
              (m2.raise 80).logM 0x05 noInst 0x0007 1 [m2.feed.length] else m2
          let m4 := (r.2.foldl (fun t p => t.feedFault key p.index) m3).feedDecoders key new
          if skipped then ((m4.flyPage key).skipPage key).stationsMove
          else
            let bars := ss.filterMap (fun s => (m4.startBar key new s).map (fun b => (s, b.1, b.2)))
            if bars.isEmpty then (m4.flyPage key).stationsMove else m4.refusePage key bars
        | c => m.hitRefused stations c

/-! ### Hits and skipped pitches (R243 to R246) -/

/-- The registers of compare unit `u`. -/
def cmpBase (u : Nat) : Nat := 0xD01000 + 0x40 * u

/-- Whether a unit is armed (R240). -/
def Mach.cmpArmed (m : Mach) (u : Nat) : Bool := m.bitA (cmpBase u + 0x24) 31

/-- SOURCE of a unit. -/
def Mach.cmpSource (m : Mach) (u : Nat) : Nat := m.getA (cmpBase u + 0x14) 30 2

/-- NEXT of a unit. -/
def Mach.cmpNext (m : Mach) (u : Nat) : Int := m.rdA64 (cmpBase u + 0x18)

/-- A unit's spacing. -/
def Mach.cmpSpacing (m : Mach) (u : Nat) : Nat := m.rd64 m.token (cmpBase u + 8)

/-- `k` hits or pitches are taken from a unit's count: at 0 it is DONE and disarms. -/
def Mach.cmpUse (m : Mach) (u k : Nat) : Mach :=
  let c := (m.rdA (cmpBase u + 0x10)).toNat
  if c = 0xFFFFFFFF then m
  else
    let m1 := m.wrB (cmpBase u + 0x10) (BitVec.ofNat 32 (c - k))
    if c ≤ k then m1.putB (cmpBase u + 0x24) 30 2 1 else m1

/-- M0 and B0 are latched at a page-start hit of a unit on the main channel (R237). -/
def Mach.latchPair (m : Mach) (ch : Nat) : Mach :=
  m.modEnc ch (fun e => { e with mainLatch := m.encPos ch, backLatch := m.ownPos (m.backupOf ch) })

/-- One hit, with its actions in the order of R244. -/
def Mach.hit (m : Mach) (u : Nat) : Mach :=
  let act := m.rdA (cmpBase u + 0x14)
  let pos := m.cmpNext u
  let stations := fieldOf act 0 6
  let m0 := (m.wrB64 (cmpBase u + 0x18) (pos + m.cmpSpacing u)).cmpUse u 1
  let m1 := m0.putB (cmpBase u + 0x24) 0 16 ((m.getA (cmpBase u + 0x24) 0 16 + 1) % 65536)
  let m2 := if stations = 0 then m1 else (m1.latchPair (fieldOf act 30 2)).pageStart u stations pos false
  let m3 := (bitsOf (fieldOf act 8 8) 8).foldl (fun t j => t.pulse j) m2
  let m4 := if bitOf act 29 then m3.onSides Mach.inService (fun d t => t.giveToken d (fieldOf act 24 5)) else m3
  if bitOf act 16 then m4.raise (if u < 8 then 56 else 57) else m4

/-- The pitches skipped, each in its order (R246). -/
def Mach.skipPitches (m : Mach) (u stations : Nat) (pos spacing : Int) : Nat → Mach
  | 0 => m
  | fuel + 1 => (m.pageStart u stations pos true).skipPitches u stations (pos + spacing) spacing fuel

/-- A unit whose NEXT lies at or behind the position skips pitches (R245). -/
def Mach.skipUnit (m : Mach) (u : Nat) : Mach :=
  let pos := m.encPos (m.cmpSource u)
  let next := m.cmpNext u
  if !m.cmpArmed u || decide (pos < next) then m
  else
    let sp := m.cmpSpacing u
    let c := (m.rdA (cmpBase u + 0x10)).toNat
    let want := if sp = 0 then 1 else ((pos - next) / (sp : Int)).toNat + 1
    let k := if c = 0xFFFFFFFF then want else min want c
    let m1 := (m.wrB64 (cmpBase u + 0x18) (next + k * sp)).cmpUse u k
    let m2 := ((m1.addSatB (cmpBase u + 0x20) k).raise 61).logM 0x0D u 0x0008 2 [k]
    let stations := m.getA (cmpBase u + 0x14) 0 6
    if stations = 0 then m2 else m2.skipPitches u stations next sp k

/-- One evaluation of the units on some channels (R243): those that hit act in ascending order, each once. -/
def Mach.hitRound (m : Mach) (chans : List Nat) : Mach :=
  (List.range 16).foldl (fun t u =>
    if chans.contains (t.cmpSource u) && t.cmpArmed u && decide (t.cmpNext u ≤ t.encPos (t.cmpSource u)) then t.hit u else t) m

/-- Evaluations in turn. -/
def Mach.hitRounds (m : Mach) (chans : List Nat) : Nat → Mach
  | 0 => m
  | fuel + 1 => (m.hitRound chans).hitRounds chans fuel

/-- The hits on channels that have counted forward: evaluations go on until every unit's NEXT lies ahead. -/
def Mach.hitUnits (m : Mach) (chans : List Nat) : Mach :=
  m.hitRounds chans ((List.range 16).foldl (fun n u =>
    let ch := m.cmpSource u
    if chans.contains ch && m.cmpArmed u then max n ((m.encPos ch - m.cmpNext u) / (max 1 (m.cmpSpacing u) : Nat) + 1).toNat else n) 0)

end Sys2Proof.Machine
end

