-- ==== Sys2Proof/Machine/LineTracking.lean ====
section
/-!
DEFINITION. Line tracking (R219 to R263): counting, the PLL, index checks, encoder faults and substitution, disagreement,
reversal, capture inputs, reject outputs and overspeed, with the commands of the line tracking group (R211, R231, R242).
-/

namespace Sys2Proof.Machine

/-! ### Channels -/

/-- ENC_STAT of a channel. -/
def ltkStat (n : Nat) : Nat := encBase n + 0x24

/-- A log entry of line tracking; its severities are the model's. -/
def Mach.logLtk (m : Mach) (n code sev : Nat) (args : List Int) (cls : Nat := 0xFFFF) : Mach := m.logM 0x0D n code sev args cls

/-- Whether the control domain runs (R26, R565): a side is in service and the module is in RUN or IDLE. -/
def Mach.tracking (m : Mach) : Bool := m.inService m.token && decide (m.getA 0x20004 19 3 < 2)

/-- POS_INC of a channel; 0 acts as 1. -/
def Mach.posInc (m : Mach) (n : Nat) : Nat := max 1 (m.rdA (encBase n + 4)).toNat

/-- The channel whose count serves a channel's position. -/
def Mach.serving (m : Mach) (n : Nat) : Nat := if m.bitA (ltkStat n) 30 then m.backupOf n else n

/-- A healthy channel has neither FAULT nor LOS (R234). -/
def Mach.encHealthy (m : Mach) (n : Nat) : Bool := !m.bitA (ltkStat n) 29 && !m.bitA (ltkStat n) 28

/-- Whether a channel has a backup that is configured and healthy (R236). -/
def Mach.backupReady (m : Mach) (n : Nat) : Bool := m.bitA (encBase n) 19 && m.encHealthy (m.backupOf n)

/-- DISAGREE_TOL; 0 acts as 1. -/
def Mach.disagreeTol (m : Mach) (n : Nat) : Nat := max 1 (m.getA (encBase n + 0xC) 16 16)

/-! ### The PLL (R225) -/

/-- LOCKED is cleared: IPOS takes ENC_POS and LOCK_LOST is set. -/
def Mach.lockLost (m : Mach) (n : Nat) : Mach :=
  let m1 := m.modEnc n (fun e => { e with ipos := m.encPos n, tally := 0 })
  if m.bitA (ltkStat n) 31 then
    ((((m1.setB (ltkStat n) 31 false).setB (ltkStat n) 24 true).modEnc n (fun e => { e with lostAt := some m.now }))).logLtk
      n 0x0006 2 []
  else m1

/-- A count at the PLL: how far IPOS lies from ENC_POS then is a free value. -/
def Mach.pllCount (m : Mach) (n : Nat) : Mach :=
  let diff := Config.freeInt m.fresh (200 + n)
  let off := diff.natAbs * 2 ^ 24
  let inc := m.posInc (m.serving n)
  let m1 := m.modEnc n (fun e => { e with ipos := m.encPos n + diff })
  if m.bitA (ltkStat n) 31 then (if 2 * inc < off then m1.lockLost n else m1)
  else if inc ≤ off then m1.modEnc n (fun e => { e with tally := 0 })
  else
    let m2 := m1.modEnc n (fun e => { e with tally := e.tally + 1 })
    if 256 ≤ (m2.encOf n).tally then m2.setB (ltkStat n) 31 true else m2

/-! ### What a new position does (R239, R243, R253, R257, R258) -/

/-- Every line of a page that is still to be judged on a station is blanked. -/
def StnPage.blankNow (q : StnPage) : StnPage := { q with blankFrom := some (min (q.blankFrom.getD q.judged) q.judged) }

/-- A reversal (R239): on the job's channel, committed pages are blanked from here on and the others withdrawn. -/
def Mach.webBack (m : Mach) (n : Nat) : Mach :=
  let m1 := (((m.setB (ltkStat n) 25 true).setB (ltkStat n) 23 false).raise 63).logLtk n 0x0007 2 [m.encPos n]
  let m2 := m1.modEnc n (fun e => { e with reversed := true })
  if n != m2.jobChan then m2
  else m2.pages.foldl (fun t e =>
    if e.2.committed then t.modPage e.1 (fun k => { k with prog := tabMap (fun _ q => q.blankNow) k.prog })
    else t.withdrawPage e.1 fWithdrawn) m2

/-- The highest position since JOB_ARM, and a fall of more than 64 units below it. -/
def Mach.trackHigh (m : Mach) (n : Nat) : Mach :=
  let e := m.encOf n
  let pos := m.encPos n
  if !engLive m.eng then (if e.reversed then m.modEnc n (fun x => { x with reversed := false }) else m)
  else if e.highest ≤ pos then m.modEnc n (fun x => { x with highest := pos, reversed := false })
  else if !e.reversed && decide (pos < e.highest - 64) then m.webBack n
  else m

/-- The pulses whose fire positions on a channel have been reached are delivered. -/
def Mach.fireRejects (m : Mach) (n : Nat) : Mach :=
  (List.range 8).foldl (fun t j =>
    let pos := t.encPos n
    let due (e : Nat × Int) : Bool := e.1 == n && decide (e.2 ≤ pos)
    if !(t.rejOf j).queue.any due then t
    else
      let k := ((t.rejOf j).queue.filter due).length
      let t1 := t.modRej j (fun r => { r with queue := r.queue.filter (fun e => !due e) })
      let t2 := (List.range k).foldl (fun u _ => u.pulse j) t1
      if (t2.rejOf j).queue.isEmpty && (t2.rejOf j).heldOn then (t2.modRej j (fun r => { r with heldOn := false })).rejShow j
      else t2) m

/-- The positions of some channels have moved in one cycle: reversal, hits where they count forward, reject pulses, and the deadlines and
windows of the armed job. -/
def Mach.moved (m : Mach) (ns : List Nat) (hits : Bool) : Mach :=
  let m1 := ns.foldl (fun t n => t.trackHigh n) m
  let m2 := if hits then m1.hitUnits (ns.filter (fun n => !(m1.encOf n).reversed)) else m1
  ns.foldl (fun t n =>
    let t1 := t.fireRejects n
    if engLive t1.eng && n == t1.jobChan then (t1.deadlines (t1.encPos n)).closeWins (t1.encPos n) else t1) m2

/-- What follows the positions at once: gear changes, LED lines and pages to place. -/
def Mach.settled (m : Mach) : Mach := ((List.range (steppersOf m.part)).foldl (fun t k => t.gearCheck k) m).stationsMove

/-! ### Counting (R222 to R224) -/

/-- The step that edges give in a mode, before INVERT. -/
def edgeStep (mode : Nat) (aRise bRise bHigh : Bool) : Int :=
  if mode = 1 then (if aRise then (if bHigh then 1 else -1) else 0)
  else if mode = 2 then (if aRise && bRise then 0 else if aRise then 1 else if bRise then -1 else 0)
  else 0

/-- A count of a channel. The channels that it serves move with it. -/
def Mach.count (m : Mach) (ch : Nat) (step : Int) : Mach :=
  let m1 := (m.modEnc ch (fun e => { e with count := e.count + step, forward := decide (0 < step) })).setB (ltkStat ch) 28 false
  let moves := [0, 1, 2, 3].filter (fun n => m1.serving n == ch && (m1.encOf n).held.isNone)
  ((moves.foldl (fun t n => t.pllCount n) m1).moved moves (decide (0 < step))).settled

/-- ENC_COUNT: R222 to R225, R239, R243, R253. -/
def execEncCount (ch : Nat) (aRise bRise bHigh : Bool) (s : State) : Host.Outcome State Fault Refusal :=
  onM (fun m =>
    if !m.tracking || decide (3 < ch) then m
    else
      let cfg := m.rdA (encBase ch)
      let d := edgeStep (fieldOf cfg 0 2) aRise bRise bHigh
      if d = 0 then m else m.count ch (if bitOf cfg 2 then -d else d)) s

/-! ### Encoder faults (R234 to R236, R673) -/

/-- A channel is lost: the armed job's channel stops the engine; otherwise what takes its position from the channel is disarmed. -/
def Mach.channelLost (m : Mach) (n : Nat) : Mach :=
  let m1 := m.gearMasterLost n
  if engLive m1.eng && n == m1.jobChan then m1.faultEngine 5
  else
    let m2 := (List.range 16).foldl (fun t u => if t.cmpSource u = n then t.setB (cmpBase u + 0x24) 31 false else t) m1
    (List.range 16).foldl (fun t k =>
      let r := 0xD02000 + 0x20 * k
      if t.getA r 2 2 = n then t.putB r 0 2 0 else t) m2

/-- A channel whose position came from another channel that is now lost holds its last value (R673). -/
def Mach.servedLost (m : Mach) (ch : Nat) : Mach :=
  [0, 1, 2, 3].foldl (fun t n =>
    if t.bitA (ltkStat n) 30 && t.backupOf n == ch && (t.encOf n).held.isNone then
      (t.modEnc n (fun e => { e with held := some (t.encPos n) })).channelLost n
    else t) m

/-- An encoder fault is declared on a channel (R234): a substitution waits for the next 10 µs tick. -/
def Mach.encFault (m : Mach) (n code : Nat) : Mach :=
  if m.bitA (ltkStat n) 29 then m
  else
    let m1 := (((m.setB (ltkStat n) 29 true).raise 60).logLtk n code 3 [m.encPos n]).servedLost n
    if m1.backupReady n && !m1.bitA (ltkStat n) 30 then m1.modEnc n (fun e => { e with subPend := true })
    else if m1.bitA (ltkStat n) 30 then m1
    else m1.channelLost n

/-- The panels whose lines were exposed while SUB_OFFSET_NEXT of a channel was frozen (R236): they take the flag, or are clear again. -/
def Mach.settleDoubt (m : Mach) (n : Nat) (flag : Bool) : Mach :=
  { m with pages := tabMap (fun _ k => { k with panels := k.panels.map (fun p =>
      if hasBit p.doubt n then { (if flag then p.mark fDisagree else p) with doubt := p.doubt - 2 ^ n } else p) }) m.pages }

/-- Substitution (R236). -/
def Mach.substitute (m : Mach) (n : Nat) : Mach :=
  let old := m.encPos n
  let m1 := (m.modEnc n (fun e => { e with subPend := false, subOffset := e.subNext })).setB (ltkStat n) 30 true
  let step := m1.encPos n - old
  let m2 := (((m1.setB (ltkStat n) 27 false).wrB (encBase n + 0x2C) (BitVec.ofInt 32 (clampInt (-2147483647) 2147483647 step))).raise
    60).logLtk n 0x0004 2 [step]
  let m3 := m2.gearAbsorb n step
  let m4 := m3.settleDoubt n (decide (m3.disagreeTol n < step.natAbs))
  let m5 := if 0 < step then
      (List.range 16).foldl (fun t u => if t.cmpSource u = n then t.skipUnit u else t) m4
    else m4
  m5.moved [n] false

/-- What a declared fault has left to the tick (R236). -/
def Mach.tickFault (m : Mach) (n : Nat) : Mach :=
  if !(m.encOf n).subPend then m
  else if m.backupReady n then m.substitute n
  else (m.modEnc n (fun e => { e with subPend := false })).channelLost n

/-- ENC_LOS: R234. A channel whose MODE is off ignores A and B (R222): with INDEX_EN it has Z to lose. -/
def execEncLos (ch : Nat) (s : State) : Host.Outcome State Fault Refusal :=
  onM (fun m =>
    let mode := m.getA (encBase ch) 0 2
    if !m.tracking || decide (3 < ch) || !(mode == 1 || mode == 2 || m.bitA (encBase ch) 13) then m
    else ((m.setB (ltkStat ch) 28 true).encFault ch 0x0002).settled) s

/-! ### Index pulses (R232, R233) -/

/-- A checked index pulse, given its distance from the reference. -/
def Mach.indexCheck (m : Mach) (ch : Nat) (dist : Int) : Mach :=
  let m1 := m.wrB (encBase ch + 0x28) (BitVec.ofInt 32 dist)
  let nom : Int := (m.rdA (encBase ch + 8)).toNat
  if (dist - nom).natAbs ≤ m.getA (encBase ch + 0xC) 0 16 then m1.modEnc ch (fun e => { e with indexBad := false })
  else
    let m2 := (((m1.setB (ltkStat ch) 26 true).modEnc ch (fun e => { e with indexBad := true })).raise 58).logLtk ch 0x0001 1
      [dist, m.encPos ch] 0x01
    let r := m2.countFault 0x01 0 ch
    if r.2 then r.1.encFault ch 0x0003 else r.1

/-- INDEX_PULSE: R232, R233. -/
def execIndexPulse (ch : Nat) (s : State) : Host.Outcome State Fault Refusal :=
  onM (fun m =>
    let e := m.encOf ch
    if !m.tracking || decide (3 < ch) || !m.bitA (encBase ch) 13 || (m.rdA (encBase ch + 8)) == 0 || !e.forward then m
    else
      let pos := m.encPos ch
      let m1 := if m.bitA (ltkStat ch) 23 then m.indexCheck ch (pos - e.refPos) else m.setB (ltkStat ch) 23 true
      (m1.modEnc ch (fun x => { x with refPos := pos })).settled) s

/-! ### The 10 µs tick (R226, R235, R237, R262) -/

/-- The comparison of a channel with its backup (R237). -/
def Mach.compareBackup (m : Mach) (n : Nat) : Mach :=
  let b := m.backupOf n
  let e := m.encOf n
  let on := m.bitA (encBase n) 19 && m.encHealthy n && m.encHealthy b && !m.bitA (ltkStat n) 30 &&
    decide ((m.disagreeTol n : Int) < ((m.encPos n - e.mainLatch) - (m.ownPos b - e.backLatch)).natAbs)
  if on == m.bitA (ltkStat n) 27 then m
  else
    let m1 := m.setB (ltkStat n) 27 on
    if on then (m1.raise 63).logLtk n 0x0005 2 [m.encPos n, m.ownPos b] else m1

/-- SUB_OFFSET_NEXT is latched while both channels are healthy and nothing freezes it (R235). -/
def Mach.latchSub (m : Mach) (n : Nat) : Mach :=
  let b := m.backupOf n
  if !m.bitA (encBase n) 19 || !m.encHealthy n || !m.encHealthy b || m.bitA (ltkStat n) 30 || m.subFrozen n then m
  else
    let m1 := m.modEnc n (fun e => { e with subNext := m.encPos n - m.ownPos b })
    if m1.pages.any (fun k => k.2.panels.any (fun p => hasBit p.doubt n)) then m1.settleDoubt n false else m1

/-- Overspeed of a station (R262). -/
def Mach.overspeed (m : Mach) (s : Nat) : Mach :=
  let cfg := m.rdA 0xD03900
  let tol := min 20 (fieldOf cfg 0 8)
  let lag := min 64 (max 1 (fieldOf cfg 8 8))
  let on := m.inJob s && (m.rateOver s tol || decide (lag < (m.rdA (ovsLag s)).toNat))
  if on == m.bitA 0xD03904 s then m
  else
    let m1 := m.setB 0xD03904 s on
    if on then ((m1.setB 0xD03904 (8 + s) true).raise 59).logLtk s 0x0009 1 [] else (m1.raise 59).logLtk s 0x000A 0 []

/-- IO24_IN is present or absent from now on (R54, R55): every reject output follows it. -/
def Mach.supply24 (m : Mach) (on : Bool) : Mach :=
  if on = m.io24 then m else (List.range 8).foldl (fun t j => t.rejShow j) { m with io24 := on }

/-- LTK_TICK: R54, R55, R225, R226, R235 to R237, R245, R262. -/
def execLtkTick (speeds : List Int) (inputs : LineInputs) (s : State) : Host.Outcome State Fault Refusal :=
  onM (fun m0 =>
    let m := if m0.tracking then m0.supply24 inputs.io24 else m0
    if !m.tracking then m
    else
      let chans := [0, 1, 2, 3]
      let m1 := chans.foldl (fun t n =>
        let t1 := match speeds[n]? with
          | some v => t.wrB (encBase n + 0x20) (BitVec.ofInt 32 v)
          | none => t
        match inputs.ipos[n]? with
        | some v => t1.modEnc n (fun e => { e with ipos := v })
        | none => t1) m
      let m2 := chans.foldl (fun t n => ((t.tickFault n).compareBackup n).latchSub n) m1
      ((List.range (stationsOf m2.part)).foldl (fun t s => t.overspeed s) m2).settled) s

/-! ### Capture inputs (R249 to R252) -/

/-- Whether an edge is one that the input captures. -/
def edgeTaken (edge : Nat) (rising : Bool) : Bool := if rising then hasBit edge 0 else hasBit edge 1

/-- An edge is lost because the FIFO holds 8 entries (R252). -/
def Mach.captureLost (m : Mach) (d : SideId) (input : Nat) (pos : Int) : Mach :=
  let m1 := (m.put d (capCfg input + 4) 30 1 1).raiseOn d 62
  if d = m1.token then m1.logLtk input 0x000F 2 [pos] else m1

/-- CAPTURE_EDGE: R252. The position is latched at the unfiltered edge; one that the input captures is lost where it finds the FIFO full.
A capture input does not function without IO24_IN (R54). -/
def execCaptureEdge (input : Nat) (rising : Bool) (s : State) : Host.Outcome State Fault Refusal :=
  onM (fun m =>
    if !m.tracking || !m.io24 || decide (15 < input) then m
    else m.onSides Mach.inService (fun d t =>
      let pos := t.encPos (t.getA (capCfg input) 2 2)
      let full := edgeTaken (t.getA (capCfg input) 0 2) rising && decide (8 ≤ (t.capOf d input).fifo.length)
      let t1 := t.modCap d input (fun c => { c with pend := some (rising, if full then none else some pos) })
      if full then t1.captureLost d input pos else t1)) s

/-- CAPTURE_FILTER_END: R252. The level is the filtered one once it has held; a kept entry raises event 62. -/
def execCaptureFilterEnd (input : Nat) (held : Bool) (s : State) : Host.Outcome State Fault Refusal :=
  onM (fun m =>
    if !m.tracking || decide (15 < input) then m
    else m.onSides Mach.inService (fun d t =>
      match (t.capOf d input).pend with
      | none => t
      | some (rising, at_) =>
        let on := held && m.io24
        let t1 := t.modCap d input (fun c => { c with pend := none, level := if on then rising else c.level })
        match at_ with
        | none => t1
        | some pos =>
          if !on || !edgeTaken (t.getA (capCfg input) 0 2) rising then t1
          else (t1.modCap d input (fun c => { c with fifo := c.fifo ++ [pos] })).raiseOn d 62)) s

/-- CAP_POP: R251. -/
def execCapPop (d : SideId) (input : Nat) (s : State) : Host.Outcome State Fault Refusal :=
  onM (fun m =>
    if m.inService d && decide (input < 16) then m.modCap d input (fun c => { c with fifo := c.fifo.tail }) else m) s

/-! ### Reject outputs (R55, R257, R258) -/

/-- REJECT_PULSE_END: R257. -/
def execRejectPulseEnd (output : Nat) (s : State) : Host.Outcome State Fault Refusal :=
  onM (fun m =>
    if (m.rejOf output).running = 0 then m
    else (m.modRej output (fun r => { r with running := r.running - 1 })).rejShow output) s

/-- REJECT_OVERLOAD: R55. -/
def execRejectOverload (output : Nat) (s : State) : Host.Outcome State Fault Refusal :=
  onM (fun m =>
    if !m.bitA (rejBase output + 0xC) 31 || decide (7 < output) then m
    else
      let m1 := (m.modRej output (fun r => { r with overload := true })).rejShow output
      ((m1.setB (rejBase output + 0xC) 30 true).raise 60).logLtk output 0x000B 2 []) s

/-- REJECT_RETRY: R55. -/
def execRejectRetry (output : Nat) (s : State) : Host.Outcome State Fault Refusal :=
  onM (fun m =>
    if (m.rejOf output).overload then (m.modRej output (fun r => { r with overload := false })).rejShow output else m) s

/-! ### Commands (R211, R230, R231, R242, R247) -/

/-- ENC_CONFIG's plan: R230, R231. -/
def planEncConfig (msg : Msg) (m : Mach) : Plan :=
  let p := msg.payload
  let n := numAt p 0 4
  let cfg := wordAt p 4
  let b := fieldOf cfg 16 2
  { param := firstBad [(decide (3 < n), 0), (cfg &&& 0xFFF40C08 != 0, 4),
      (bitOf cfg 19 && (b == n || m.bitA (encBase b) 19), 4), (numAt p 20 12 != 0, 20)]
    act := fun t =>
      let r := encBase n
      let t1 := (((t.wrB r cfg).wrB (r + 4) (wordAt p 8)).wrB (r + 8) (wordAt p 12)).wrB (r + 0xC) (wordAt p 16)
      let t2 := ((t1.setB (ltkStat n) 29 false).setB (ltkStat n) 30 false).setB (ltkStat n) 23 false
      let t3 := t2.clearFault 0x01 0 n
      (t3.modEnc n (fun e => { e with subOffset := 0, held := none, subPend := false })).lockLost n }

/-- ENC_CONFIG: R230. -/
def execEncConfig (msg : Msg) (s : State) : Host.Outcome State Fault Refusal :=
  onM (fun m => m.runCmd { opcode := 0x0601, lenMin := 32, lenMax := 32, states := inC } msg (planEncConfig msg)) s

/-- STATION_OFFSET's plan: R247. -/
def planStationOffset (msg : Msg) (m : Mach) : Plan :=
  let n := numAt msg.payload 0 4
  let v := numAt msg.payload 4 4
  { absent := decide (n ≤ 5) && decide (stationsOf m.part ≤ n)
    param := firstBad [(decide (5 < n), 0), (decide (v < 4096 ∨ 0x7FFFFFFF < v), 4)]
    act := fun t => t.wrB (0xD03800 + 4 * n) (BitVec.ofNat 32 v) }

/-- STATION_OFFSET: R247, R248. -/
def execStationOffset (msg : Msg) (s : State) : Host.Outcome State Fault Refusal :=
  onM (fun m => m.runCmd { opcode := 0x0602, lenMin := 8, lenMax := 8, states := inCAP } msg (planStationOffset msg)) s

/-- The station mask of the fitted stations. -/
def stationMask (p : Part) : Nat := 2 ^ stationsOf p - 1

/-- Whether a compare unit is in use (R197): it is armed, and a queued page of the armed job names it. -/
def Mach.cmpUsed (m : Mach) (u : Nat) : Bool :=
  match tabFind m.jobs m.armed with
  | some j => engLive m.eng && m.cmpArmed u && (j.descFor u).isSome
  | none => false

/-- CMP_LOAD's plan: R197, R242, R245. -/
def planCmpLoad (msg : Msg) (m : Mach) : Plan :=
  let p := msg.payload
  let u := numAt p 0 4
  let spacing := numAt p 12 8
  let count := numAt p 20 4
  let act := wordAt p 24
  let st := fieldOf act 0 6
  let job := tabFind m.jobs m.armed
  let outside := match job with
    | some j => (m.eng == .armed || m.eng == .printing) && st &&& j.stations != st
    | none => false
  { absent := st &&& stationMask m.part != st
    param := firstBad [(decide (15 < u), 0),
      (decide (1 ≤ spacing ∧ spacing ≤ 63) || decide (2 ^ 48 < spacing) || (spacing == 0 && count != 1 && count != 0), 12),
      (count == 0, 20), (act &&& 0x00FE00C0 != 0 || outside, 24)]
    refuse := if m.cmpUsed u then some (stInUse, u) else none
    act := fun t =>
      let r := cmpBase u
      let t1 := (List.range 6).foldl (fun x i => x.wrB (r + 4 * i) (wordAt p (4 + 4 * i))) t
      let t2 := (t1.wrB64 (r + 0x18) (intAt p 4 8)).putB (r + 0x24) 30 2 2
      t2.skipUnit u }

/-- CMP_LOAD: R242. -/
def execCmpLoad (msg : Msg) (s : State) : Host.Outcome State Fault Refusal :=
  onM (fun m => m.runCmd { opcode := 0x0603, lenMin := 32, lenMax := 32, states := inCAP } msg (planCmpLoad msg)) s

/-- CMP_STOP's plan: R197, R242. -/
def planCmpStop (msg : Msg) (m : Mach) : Plan :=
  let u := numAt msg.payload 0 4
  { param := firstBad [(decide (15 < u), 0)]
    refuse := if m.cmpUsed u then some (stInUse, u) else none
    act := fun t => t.setB (cmpBase u + 0x24) 31 false }

/-- CMP_STOP: R242. -/
def execCmpStop (msg : Msg) (s : State) : Host.Outcome State Fault Refusal :=
  onM (fun m => m.runCmd { opcode := 0x0604, lenMin := 4, lenMax := 4, states := inCAPD } msg (planCmpStop msg)) s

/-- CAP_CONFIG's plan: R231. The FIFO keeps its entries. -/
def planCapConfig (msg : Msg) (_m : Mach) : Plan :=
  let k := numAt msg.payload 0 4
  let w := wordAt msg.payload 4
  { param := firstBad [(decide (15 < k), 0), (w &&& 0xFFFF00F0 != 0, 4)]
    act := fun t => t.wrB (capCfg k) w }

/-- CAP_CONFIG: R231. -/
def execCapConfig (msg : Msg) (s : State) : Host.Outcome State Fault Refusal :=
  onM (fun m => m.runCmd { opcode := 0x0605, lenMin := 8, lenMax := 8, states := inC } msg (planCapConfig msg)) s

/-- REJ_CONFIG's plan: R231. Pulses queued stay queued. -/
def planRejConfig (msg : Msg) (_m : Mach) : Plan :=
  let j := numAt msg.payload 0 4
  let w := wordAt msg.payload 4
  { param := firstBad [(decide (7 < j), 0), (w &&& 0x7FFF0000 != 0, 4), (decide (2 ^ 48 < numAt msg.payload 8 8), 8)]
    act := fun t => ((t.wrB (rejBase j) w).wrB (rejBase j + 4) (wordAt msg.payload 8)).wrB (rejBase j + 8) (wordAt msg.payload 12) }

/-- REJ_CONFIG: R231. -/
def execRejConfig (msg : Msg) (s : State) : Host.Outcome State Fault Refusal :=
  onM (fun m => m.runCmd { opcode := 0x0606, lenMin := 16, lenMax := 16, states := inC } msg (planRejConfig msg)) s

/-- LTK_READ's plan: R211. -/
def planLtkRead (msg : Msg) (m : Mach) : Plan :=
  let n := numAt msg.payload 0 4
  let body := Config.ltkRead (m.encPos n) (m.rdA (encBase n + 0x20)) (m.rdA (ltkStat n), m.rdA (encBase n + 0x28))
    ((List.range 16).map (fun u => (m.rdA (cmpBase u + 0x20)).toNat))
  { param := firstBad [(decide (3 < n), 0)], reply := bytesAt body 0 48 }

/-- LTK_READ: R211. -/
def execLtkRead (msg : Msg) (s : State) : Host.Outcome State Fault Refusal :=
  onM (fun m => m.runCmd { opcode := 0x0607, lenMin := 4, lenMax := 4, states := inCAPDF } msg (planLtkRead msg)) s

end Sys2Proof.Machine
end

