-- ==== Sys2Proof/Machine/Scan.lean ====
section
/-!
DEFINITION. The sweeps of laser stations (R387, R389 to R396, R410 to R429): the synthesizer's lock and coast, facet identity, the
assignment of sweep indices, what a sweep writes, and what is lost.
-/

namespace Sys2Proof.Machine

/-! ### Registers -/

/-- PXC_STAT of a station. -/
def pxcStat (s : Nat) : Nat := pxcBase s + 4

/-- A log entry of a station's synthesizer. -/
def Mach.logPxc (m : Mach) (s code sev : Nat) (args : List Int) (cls : Nat := 0xFFFF) : Mach := m.logM 0x0C s code sev args cls

/-- PXC_STAT.SYNC. -/
def Mach.sync (m : Mach) (s : Nat) : Nat := m.getA (pxcStat s) 29 3

/-- PXC_STAT.FACET. -/
def Mach.facetNow (m : Mach) (s : Nat) : Nat := m.getA (pxcStat s) 20 4

/-- PHASE_TOL; 0 acts as 1, above 64 as 64. -/
def Mach.phaseTol (m : Mach) (s : Nat) : Int := (clampNat 1 64 (m.getA (pxcBase s + 0x10) 24 8) : Nat)

/-- LOCK_WIN in 0.01 %. -/
def Mach.lockWin (m : Mach) (s : Nat) : Nat := clampNat 1 200 (m.getA (pxcBase s + 0x10) 0 8)

/-- LOCK_N. -/
def Mach.lockN (m : Mach) (s : Nat) : Nat := max 4 (m.getA (pxcBase s) 16 8)

/-- COAST_MAX. -/
def Mach.coastMax (m : Mach) (s : Nat) : Nat := min 8 (m.getA (pxcBase s) 12 4)

/-- Whether the facet must be known (R416). -/
def Mach.facetIdOn (m : Mach) (s : Nat) : Bool := m.bitA (pxcBase s) 10

/-- IVL_DEV of a facet, in ppm. -/
def Mach.ivlDev (m : Mach) (s f : Nat) : Int := signedOf 16 (m.getA (pxcBase s + 0x204 + 8 * f) 0 16)

/-- Whether a facet is used (R391). -/
def Mach.facetUsed (m : Mach) (s f : Nat) : Bool := hasBit (numAt (m.stnSet s) 18 2) f

/-- A in lines, signed. -/
def Mach.adv (m : Mach) (s : Nat) : Int := (m.advance s : Int)

/-! ### The grid (R411) -/

/-- f_grid before its limits, in Hz; R_lc, the filtered rate of the line clock, is a free value. -/
def Mach.gridWanted (m : Mach) (s : Nat) : Nat :=
  let rlc := Config.freeNat m.fresh (320 + s)
  24567 * m.facets s * rlc * 1024 / max 1 (m.getA (pxcBase s + 8) 18 10 * m.usedFacets s (m.stnSet s) * m.advance s)

/-- Whether the grid lies at a limit, so that LOCKED cannot be reached. -/
def Mach.gridOut (m : Mach) (s : Nat) : Bool := decide (m.gridWanted s < 10000000 ∨ 200000000 < m.gridWanted s)

/-- The grid follows the line clock, except in COAST (R415). -/
def Mach.gridFollow (m : Mach) (s : Nat) : Mach :=
  if m.sync s = 3 then m else m.wrB (pxcBase s + 0x18) (BitVec.ofNat 32 (clampNat 10000000 200000000 (m.gridWanted s) / 1000))

/-! ### Lock (R414 to R416) -/

/-- The synthesizer changes state (R414). Losing the lock counts in its fault class and may inhibit the station (R605). -/
def Mach.setSync (m : Mach) (s st : Nat) (cause : Int) : Mach :=
  let old := m.sync s
  if old = st then m
  else
    let m1 := m.putB (pxcStat s) 29 3 st
    if st = 2 then m1.logPxc s 0x0001 0 [(m1.rdA (pxcBase s + 0x18)).toNat]
    else if st = 1 && decide (2 ≤ old) then
      let m2 := (m1.logPxc s 0x0002 2 [old, cause] 0x05).modStn s (fun t => { t with goodRun := 0, badRun := 0, idTerms := [] })
      (m2.countFault 0x05 0 s).1.refreshInhibit
    else m1.logPxc s 0x0002 2 [old, cause]

/-- The sums of R416 step 2, by rotation: terms and IVL_DEV in ppm times 2^14. -/
def Mach.facetSums (m : Mach) (s : Nat) (terms : List Int) : List (Nat × Nat) :=
  let f := max 1 (m.facets s)
  (List.range f).map (fun r => (r, (terms.mapIdx (fun i q => (q * 15625 - m.ivlDev s ((i + r) % f) * 16384).natAbs)).foldl (· + ·) 0))

/-- The rotation with the lowest sum, when it is at most half of the second-lowest (R416 step 3). -/
def bestRotation (sums : List (Nat × Nat)) : Option Nat :=
  let low := sums.foldl (fun (b : Option (Nat × Nat)) p => match b with
    | none => some p
    | some q => if p.2 < q.2 then some p else some q) none
  low.bind (fun p => if sums.all (fun q => q.1 == p.1 || decide (2 * p.2 ≤ q.2)) then some p.1 else none)

/-- Facet identity in ACQUIRE: one more term (R416). After 64 revolutions without an identity FACET_FAIL is set. -/
def Mach.identify (m : Mach) (s : Nat) (q : Int) : Mach :=
  let f := m.facets s
  let t := m.stnOf s
  if !m.facetIdOn s || m.bitA (pxcStat s) 26 || m.bitA (pxcStat s) 25 then m
  else
    let terms := t.idTerms ++ [q]
    if terms.length < 8 * f then m.modStn s (fun u => { u with idTerms := terms })
    else
      let sums := m.facetSums s terms
      let m1 := m.modStn s (fun u => { u with idTerms := [], idTries := u.idTries + 1, checkTerms := [] })
      match bestRotation sums with
      | some r => (m1.setB (pxcStat s) 26 true).putB (pxcStat s) 20 4 ((r + f - 1) % f)
      | none =>
        if t.idTries + 1 < 8 then m1
        else (m1.setB (pxcStat s) 25 true).logPxc s 0x0007 3 (sums.map (fun p => (p.2 : Int)))

/-- The check of the identity while LOCKED, every 8 revolutions: the terms are what the intervals deviate in all. -/
def Mach.recheck (m : Mach) (s : Nat) (q : Int) : Mach :=
  if !m.facetIdOn s then m
  else
    let f := m.facets s
    let term := q + m.ivlDev s (m.facetNow s) * 16384 / 15625
    let terms := (m.stnOf s).checkTerms ++ [term]
    if terms.length < 8 * f then m.modStn s (fun u => { u with checkTerms := terms })
    else
      let m1 := m.modStn s (fun u => { u with checkTerms := [] })
      match bestRotation (m.facetSums s terms) with
      | none => m1
      | some r =>
        if (r + f - 1) % f = m.facetNow s then m1 else (m1.setB (pxcStat s) 26 false).setSync s 1 3

/-- The state follows a valid SOS (R414, R415). -/
def Mach.syncSos (m : Mach) (s : Nat) (q : Int) : Mach :=
  let wide := m.bitA (pxcStat s) 24
  match m.sync s with
  | 3 => (m.modStn s (fun t => { t with badRun := b2n wide, missedRun := 0 })).setSync s 2 0
  | 2 =>
    let m1 := m.modStn s (fun t => { t with badRun := if wide then t.badRun + 1 else 0, missedRun := 0 })
    if 4 ≤ (m1.stnOf s).badRun then m1.setSync s 1 2 else m1.recheck s q
  | _ =>
    let good := decide (q.natAbs * 10000 ≤ m.lockWin s * 2 ^ 20)
    let m1 := (m.identify s q).modStn s (fun t => { t with goodRun := if good then t.goodRun + 1 else 0, missedRun := 0 })
    if decide (m1.lockN s ≤ (m1.stnOf s).goodRun) && (!m1.facetIdOn s || m1.bitA (pxcStat s) 26) && !m1.gridOut s then
      (m1.modStn s (fun t => { t with badRun := 0, checkTerms := [] })).setSync s 2 0
    else m1

/-! ### Which emitter writes a line (R389, R392 to R395) -/

/-- Whether a spare's substitution covers a grid line of a beam. -/
def Station.subFor (t : Station) (b : Nat) (n : Int) : Option Sub :=
  t.subs.find? (fun u => u.beam == b && decide (u.first ≤ n) && (match u.last with
    | some l => decide (n ≤ l)
    | none => true))

/-- The last grid line that was formatted before a sweep. -/
def formattedTo (sweep a : Int) : Int := (sweep - 1) * a + 31

/-- Whether beam `b` itself writes a grid line: it is in service, or the line was assigned to it before it was taken out as
planned. -/
def Mach.beamHas (m : Mach) (s b : Nat) (n : Int) : Bool :=
  let t := m.stnOf s
  m.beamEnabled s b && !m.bitA (scbBase s + 0x14) b && (t.subFor b n).isNone &&
    (!m.bitA (scbBase s + 0x10) b || (match tabFind t.outAt b with
      | some j => decide (n ≤ formattedTo j (m.adv s))
      | none => false))

/-- Whether the pass of a grid line that beam `b` stands for is written. -/
def Mach.passHas (m : Mach) (s b : Nat) (n : Int) : Bool := m.beamHas s b n || ((m.stnOf s).subFor b n).isSome

/-- The passes of a grid line that are written. -/
def Mach.passesOf (m : Mach) (s : Nat) (n : Int) : List Nat :=
  let a := m.advance s
  (List.range (setPasses (m.stnSet s))).filter (fun p => m.passHas s (p * a + (n % (a : Int)).toNat) n)

/-- Whether a grid line is lost at beam `b` (R393, R394): no emitter of any pass writes it, or it was formatted for a beam that
failed. -/
def Mach.lineLost (m : Mach) (s b : Nat) (n : Int) : Bool :=
  !m.passHas s b n &&
    ((m.bitA (scbBase s + 0x14) b && (match tabFind (m.stnOf s).failedAt b with
      | some j => decide (n ≤ formattedTo j (m.adv s))
      | none => false)) || (m.passesOf s n).isEmpty)

/-! ### Lines of pages on the grid -/

/-- The pages that a range of grid lines meets on a station: key and the page lines. -/
def Mach.gridPages (m : Mach) (s : Nat) (lo hi : Int) : List (Nat × Nat × Nat) :=
  m.pages.filterMap (fun e =>
    match tabFind e.2.prog s with
    | none => none
    | some q =>
      match q.grid with
      | none => none
      | some g =>
        let a := max 0 (lo - g)
        let b := min (hi - g) ((e.2.length : Int) - 1)
        if b < a || q.ended then none else some (e.1, a.toNat, b.toNat))

/-- The spares that stand in now, with their lines of a sweep. -/
def Mach.spareLines (m : Mach) (s : Nat) (ja : Int) : List (Nat × Int) :=
  ([0, 1].filter (fun k => m.spareOn s k)).map (fun k => (k, ja + setSparePos (m.stnSet s) k))

/-- The last grid line that a sweep touches. -/
def Mach.sweepTop (m : Mach) (s : Nat) (ja : Int) : Int := (m.spareLines s ja).foldl (fun t k => max t k.2) (ja + 31)

/-- Every page line of a grid line range is lost on a station. -/
def Mach.lossLines (m : Mach) (s : Nat) (lo hi : Int) : Mach :=
  (m.gridPages s lo hi).foldl (fun t p =>
    ((List.range (p.2.2 + 1 - p.2.1)).foldl (fun u i => u.badLine s p.1 (p.2.1 + i) 0 false) t).modProg p.1 s (fun q =>
      { q with judged := max q.judged (p.2.2 + 1) })) m

/-- Pages pass up to a grid line on a station: lines before it take no further sweep. -/
def Mach.passGrid (m : Mach) (s : Nat) (top : Int) : Mach :=
  let m1 := m.judge s top
  let m2 := (m1.gridPages s (top - 100000) top).foldl (fun t p => t.passLines s p.1 (p.2.2 + 1)) m1
  (m2.dropBuffer s).placePages s

/-! ### Sweeps (R418 to R420) -/

/-- The sweep that is being written is complete. -/
def Mach.closeSweep (m : Mach) (s : Nat) : Mach :=
  let t := m.stnOf s
  if !t.sweepOpen then m
  else (m.modStn s (fun u => { u with sweepOpen := false })).passGrid s (t.sweep * m.adv s - 1)

/-- The lines of a sweep index are lost with a cause (R419): SYNC_LOST 9 or PLACEMENT_RANGE 8. -/
def Mach.loseLines (m : Mach) (s : Nat) (j : Int) (code : Nat) : Mach :=
  let ja := j * m.adv s
  let m1 := if code = 9 then m.putB (pxcBase s + 0x2C) 0 16 (satAt 0xFFFF (m.getA (pxcBase s + 0x2C) 0 16 + 1))
            else m.putB (pxcBase s + 0x2C) 16 16 (satAt 0xFFFF (m.getA (pxcBase s + 0x2C) 16 16 + 1))
  let extra := m1.spareLines s ja
  if (m1.gridPages s ja (ja + 31)).isEmpty && extra.all (fun k => (m1.gridPages s k.2 k.2).isEmpty) then m1
  else extra.foldl (fun t k => t.lossLines s k.2 k.2) ((m1.faultRun s 6 code 2 [j]).lossLines s ja (ja + 31))

/-- An index is lost (R418). -/
def Mach.loseSweep (m : Mach) (s code : Nat) : Mach :=
  let j := (m.stnOf s).sweep
  let m1 := (m.loseLines s j code).modStn s (fun t => { t with sweep := j + 1, sweepOpen := false })
  m1.passGrid s ((j + 1) * m.adv s - 1)

/-- The sweep being written is lost after all: EOS or the laser loop cut it short (R420, R432). -/
def Mach.loseOpen (m : Mach) (s code : Nat) : Mach :=
  let t := m.stnOf s
  if !t.sweepOpen then m
  else
    let m1 := (m.loseLines s (t.sweep - 1) code).modStn s (fun u => { u with sweepOpen := false })
    m1.passGrid s (t.sweep * m.adv s - 1)

/-- Indices whose due point has passed (R418). -/
def Mach.loseLate (m : Mach) (s code : Nat) : Nat → Mach
  | 0 => m
  | n + 1 => (m.loseSweep s code).loseLate s code n

/-- The largest sum of placement factors, 0 when negative (R427). -/
def Mach.placementMax (m : Mach) (s : Nat) : Int :=
  let best (xs : List Int) : Int := xs.foldl max (xs.headD 0)
  let segs := (List.range 64).map (fun k => signedOf 16 (m.getA (pxcBase s + 0x100 + 4 * k) 0 16))
  let scales := ((List.range (m.facets s)).filter (m.facetUsed s)).map (fun f => signedOf 16 (m.getA (pxcBase s + 0x200 + 8 * f) 0 16))
  let divs := ((List.range 34).filter (m.beamEnabled s)).map (fun b => signedOf 16 (m.getA (beamBase s b + 8) 0 16))
  max 0 (best segs + best scales + best divs)

/-- f_lim in Hz (R427). -/
def Mach.gridLimit (m : Mach) (s : Nat) : Nat :=
  if (List.range 34).any (fun b => m.beamEnabled s b && m.getA (beamBase s b) 28 3 == 4) then 100000000 else 200000000

/-- Whether a sweep's highest dot rate would exceed f_lim (R427). -/
def Mach.rateExcess (m : Mach) (s : Nat) (q : Int) : Bool :=
  let f : Int := (clampNat 10000000 200000000 (m.gridWanted s) : Nat)
  decide ((m.gridLimit s : Int) * 2 ^ 40 < f * (2 ^ 20 + q) * (2 ^ 20 + m.placementMax s))

/-! ### What a sweep writes (R389, R423 to R428) -/

/-- The minimum pulse and gap of a beam format, in ps (R428); none where the output is off. -/
def formatPulse : Nat → Option Nat
  | 1 => some 250
  | 2 => some 1250
  | 3 => some 1250
  | 4 => some 5000
  | _ => none

/-- The levels that an emitter exposes on a grid line of a page in the pass of beam `b`. -/
def Mach.emitterLevels (m : Mach) (s b key y : Nat) (n : Int) : List Nat :=
  let set := m.stnSet s
  let bad := ((m.progOf key s).map (fun r => r.2.bad.contains y)).getD true
  if bad then []
  else (m.gridLevels s key y).mapIdx (fun x l => passLevel set (m.passesOf s n) (b / m.advance s) (maskOf set x y) l)

/-- The placement of an emitter in a sweep (R424), from the sweep's SOS. -/
def Mach.placementOf (m : Mach) (s e : Nat) (q : Int) : Placement :=
  let f := m.facetNow s
  let a := m.rdA (pxcBase s + 0x200 + 8 * f)
  { q := q, scale := signedOf 16 (fieldOf a 0 16), div := signedOf 16 (m.getA (beamBase s e + 8) 0 16),
    start := 64 * (m.getA (pxcBase s + 0xC) 0 16 : Int) + signedOf 16 (fieldOf a 16 16) + (m.getA (beamBase s e + 4) 0 16 : Int),
    seg := (List.range 64).map (fun k => signedOf 16 (m.getA (pxcBase s + 0x100 + 4 * k) 0 16)) }

/-- The current of an emitter in steps: CURRENT, reduced to DERATE_PCT during derate; other formats drive none (R402, R428). -/
def Mach.driveOf (m : Mach) (s e : Nat) (derate : Bool) : Nat :=
  if m.getA (beamBase s e) 28 3 = 1 then
    m.getA (beamBase s e) 16 8 * (if derate then setDerate (m.stnSet s) else 100) / 100
  else 0

/-- An emitter exposes a grid line in the pass of beam `b`, where a page has it. -/
def Mach.exposeLine (m : Mach) (s e b : Nat) (n q : Int) : Mach :=
  match m.gridPages s n n, formatPulse (m.getA (beamBase s e) 28 3) with
  | (key, y, _) :: _, some ps =>
    let levels := m.emitterLevels s b key y n
    let least : Int := (ceilDiv (ps * (m.rdA (pxcBase s + 0x18)).toNat * 64) 1000000000 : Nat)
    let derate := ((m.bufOf s key y).map BufLine.derate).getD (m.bitA (scbBase s) 28)
    m.emit (.exposed s e n levels ((m.placementOf s e q).pulses (setAlign (m.stnSet s)) least least levels)
      (m.driveOf s e derate))
  | _, _ => m

/-- Every emitter of a sweep exposes its line. -/
def Mach.exposeSweep (m : Mach) (s : Nat) (ja q : Int) : Mach :=
  if !m.mayEmit then m
  else
    let m1 := (List.range 32).foldl (fun t b => if t.beamHas s b (ja + b) then t.exposeLine s b b (ja + b) q else t) m
    (m1.spareLines s ja).foldl (fun t k => t.exposeLine s (32 + k.1) (t.spareBeam s k.1) k.2 q) m1

/-- On a station whose head is shut down or dark, lines that were judged ahead for the spares, or have passes to come, are judged
again (R62, R404). -/
def Mach.judgeAgain (m : Mach) (s : Nat) : Mach :=
  if (m.stnOf s).dark || m.bitA (scbBase s) 26 then
    (tabKeys m.pages).foldl (fun t key => t.modProg key s (fun q => { q with judged := min q.judged q.next })) m
  else m

/-- A sweep writes its index (R418). -/
def Mach.writeSweep (m : Mach) (s : Nat) (q : Int) : Mach :=
  let j := (m.stnOf s).sweep
  let a := m.adv s
  let ja := j * a
  let m1 := ((m.judgeAgain s).placePages s).judge s (m.sweepTop s ja)
  let m2 := (m1.gridPages s ja (ja + 31)).foldl (fun t p => t.startPage s p.1) m1
  let m3 := (List.range 32).foldl (fun (t : Mach) (b : Nat) =>
    let n := ja + (b : Int)
    match t.gridPages s n n with
    | (key, y, _) :: _ => if t.lineLost s b n then (t.faultRun s 6 6 2 [key, y]).badLine s key y 0 false else t
    | [] => t) m2
  let m4 := (m3.gridPages s ja (ja + 31)).foldl (fun t p => (t.flagExposed s p.1 p.2.1 p.2.2).lineShown s p.1 p.2.2) m3
  ((m4.exposeSweep s ja q).rampLines s (m4.advance s / m4.fine s)).modStn s (fun t => { t with
    sweep := j + 1, sweepOpen := true, lambda := if m4.bitA (pxcStat s) 27 then t.lambda + 64 * a else t.lambda })

/-- LINE_FROM_SWEEP and the lag follow the rates at a used sweep (R260, R417). -/
def Mach.followLine (m : Mach) (s : Nat) (ipos : Int) : Mach :=
  let here := ipos - ((m.stnOf s).grid : Int)
  let ovr := m.rateOver s 0
  let m1 := if ovr && !m.bitA (pxcStat s) 27 then
      (m.setB (pxcStat s) 27 true).modStn s (fun t => { t with lambda := here })
    else m
  if !m1.bitA (pxcStat s) 27 then m1.wrB (ovsLag s) 0
  else
    let lag := here - (m1.stnOf s).lambda
    if !ovr && decide (lag ≤ 0) then (m1.setB (pxcStat s) 27 false).wrB (ovsLag s) 0
    else m1.wrB (ovsLag s) (BitVec.ofNat 32 lag.toNat)

/-- PHASE_LOCKED: 64 successive used sweeps within PHASE_TOL (R421). -/
def Mach.phaseLock (m : Mach) (s : Nat) (phi : Int) : Mach :=
  if m.phaseTol s < phi.natAbs then
    let m1 := m.modStn s (fun t => { t with phaseRun := 0 })
    if m.bitA (pxcStat s) 28 then (m1.setB (pxcStat s) 28 false).logPxc s 0x0005 2 [phi, (m.stnOf s).sweep] else m1
  else
    let m1 := m.modStn s (fun t => { t with phaseRun := min 64 (t.phaseRun + 1) })
    if (m1.stnOf s).phaseRun = 64 && !m.bitA (pxcStat s) 28 then
      (m1.setB (pxcStat s) 28 true).logPxc s 0x000A 0 [(m.rdA (pxcBase s + 0x30)).toInt]
    else m1

/-- A number wrapped into −w to +w. -/
def wrapInt (w v : Int) : Int := (v + w) % (2 * w) - w

/-- The sweep of a used facet takes its index (R418). `late` tells that an SOS was missed before or that SYNC was not LOCKED. -/
def Mach.assignSweep (m : Mach) (s : Nat) (q ipos : Int) (late : Bool) : Mach :=
  let a := m.adv s
  let tol := m.phaseTol s
  let m0 := (m.addB (pxcBase s + 0x24) 1).followLine s ipos
  let here := ipos - ((m0.stnOf s).grid : Int)
  let m1 := if (m0.stnOf s).sweepInit then m0
            else m0.modStn s (fun t => { t with sweepInit := true, sweep := (here - tol + 64 * a - 1) / (64 * a) })
  let lfs := m1.bitA (pxcStat s) 27
  let phi := if lfs then 0 else here - 64 * a * (m1.stnOf s).sweep
  let shown := wrapInt (32 * a) phi
  let m2 := ((m1.wrB (pxcBase s + 0x20) (BitVec.ofInt 32 shown)).phaseLock s shown).sweepLoops s shown (lfs || m1.sync s != 2)
  let code := if late || m2.sync s != 2 then 9 else 8
  let k := if phi ≤ tol then 0 else ((phi - tol + 64 * a - 1) / (64 * a)).toNat
  let m3 := m2.loseLate s code k
  if phi - 64 * a * (k : Int) < -tol then m3.addSatB (pxcBase s + 0x28) 1
  else if m3.sync s != 2 || m3.bitA (pxcStat s) 24 || m3.rateExcess s q then m3.loseSweep s code
  else m3.writeSweep s q

/-- SOS_VALID: R413 to R421. `q` is the scan-speed term in 2^-20 units, `ipos` the interpolated position at the SOS. -/
def execSosValid (station : Nat) (q ipos : Int) (s : State) : Host.Outcome State Fault Refusal :=
  onM (fun m =>
    if !m.tracking || !m.inJob station || !m.isLaser station || m.sync station = 0 then m
    else
      let m0 := m.closeSweep station
      if !m0.inJob station then m0
      else
        let t := m0.stnOf station
        let f := max 1 (m0.facets station)
        let facet := if t.seen then (m0.facetNow station + 1 + t.missedRun) % f else 0
        let wide := decide (2 ^ 20 < q.natAbs * 50)
        let m1 := (((m0.putB (pxcStat station) 20 4 facet).setB (pxcStat station) 24 wide).wrB (pxcBase station + 0x1C)
          (BitVec.ofInt 32 (m0.quot (330 + station) (q * 15625) 16384))).modStn station (fun u => { u with seen := true })
        let m2 := if wide && t.badRun == 0 then m1.logPxc station 0x0004 2 [q, facet] else m1
        let late := decide (0 < t.missedRun) || m2.sync station != 2
        let m3 := (m2.gridFollow station).syncSos station q
        if m3.facetUsed station (m3.facetNow station) then m3.assignSweep station q ipos late else m3) s

/-- SOS_MISSED: R413 to R415. -/
def execSosMissed (station : Nat) (s : State) : Host.Outcome State Fault Refusal :=
  onM (fun m =>
    if !m.tracking || !m.inJob station || !m.isLaser station || m.sync station = 0 || !(m.stnOf station).seen then m
    else
      let m0 := m.closeSweep station
      if !m0.inJob station then m0
      else
        let facet := (m0.facetNow station + 1 + (m0.stnOf station).missedRun) % max 1 (m0.facets station)
        let m1 := (m0.addSatF (pxcStat station) 0 16 1).logPxc station 0x0003 2 [facet]
        let m2 := m1.modStn station (fun t => { t with missedRun := t.missedRun + 1, goodRun := 0, idTerms := [], checkTerms := [] })
        if m2.sync station = 1 then m2
        else if (m2.stnOf station).missedRun ≤ m2.coastMax station then m2.setSync station 3 1
        else m2.setSync station 1 1) s

/-- EOS: R420. `deviation` is in 1/16 grid period; none where the EOS is missing. -/
def execEos (station : Nat) (deviation : Option Int) (s : State) : Host.Outcome State Fault Refusal :=
  onM (fun m =>
    if !m.tracking || !m.inJob station || !m.isLaser station || !(m.stnOf station).sweepOpen then m
    else
      let tol := max 1 (m.getA (pxcBase station + 0x10) 16 8)
      let bad := match deviation with
        | some v => decide (tol < v.natAbs)
        | none => true
      if bad && m.bitA (pxcBase station) 11 then
        (m.logPxc station 0x0006 2 (deviation.toList)).loseOpen station 8
      else m.closeSweep station) s

/-! ### Beam failures (R393, R429) -/

/-- BEAM_FAULT: R393, R394, R429, R605. -/
def execBeamFault (station beam : Nat) (kind : BeamFaultKind) (s : State) : Host.Outcome State Fault Refusal :=
  onM (fun m =>
    let fmt := m.getA (beamBase station beam) 28 3
    let fits := match kind with
      | .openCircuit => fmt == 1
      | .shortCircuit => fmt == 1
      | .overload => decide (2 ≤ fmt ∧ fmt ≤ 4)
    let bit := match kind with
      | .openCircuit => 31
      | .shortCircuit => 30
      | .overload => 29
    let gone := if beam < 32 then m.bitA (scbBase station + 0x14) beam else hasBit (m.stnOf station).spareFail (beam - 32)
    if !m.inService m.token || decide (stationsOf m.part ≤ station) || decide (33 < beam) || !m.beamEnabled station beam || !fits ||
        gone then m
    else
      let m1 := (m.setB (beamBase station beam + 0xC) bit true).addSatF (beamBase station beam + 0xC) 0 16 1
      let m2 := m1.logPxc station 0x0008 3 [beam, b2n (bit == 31), b2n (bit == 30), b2n (bit == 29)] 0x06
      let m3 := if beam < 32 then (m2.setB (scbBase station + 0x14) beam true).assignSpares station
        else
          let k := beam - 32
          let t := m2.modStn station (fun u => { u with spareFail := setBitN u.spareFail k })
          if t.spareOn station k then (t.setSpare station k false 0).assignSpares station else t
      let m4 := (m3.markSweeps station).calEmitterFailed station beam
      let r := m4.countFault 0x06 0 (34 * station + beam)
      if r.1.lasting 0x06 0 (34 * station + beam) && decide (beam < 32) then r.1.planOut station beam
      else r.1) s

end Sys2Proof.Machine
end

