-- ==== Sys2Proof/Machine/Jobs.lean ====
section
/-!
DEFINITION. Jobs and page queues (R88, R189, R197, R204 to R208, R238, R335, R338, R353, R376, R390, R400, R427, R430, R447): the
commands of the jobs and pages group.
-/

namespace Sys2Proof.Machine

/-! ### JOB_DEFINE (R205, R378) -/

/-- A job's descriptor as it is defined. -/
def newJob (p : List Byte) : Job :=
  { stations := numAt p 4 1, dpi600 := numAt p 5 1, led := numAt p 6 1, ring := numAt p 7 1, maxRate := numAt p 8 4,
    encoder := numAt p 12 1, screens := (List.range 6).map (fun s => numAt p (16 + 4 * s) 4), tplSet := numAt p 40 4,
    nextPage := 1, queue := [], pageSeq := 0, limited := false, triggered := 0, committed := 0, completed := 0,
    withdrawn := 0, good := 0, reject := 0, void := 0, exposed := [], feedSeq := 0 }

/-- JOB_DEFINE's plan. -/
def planJobDefine (msg : Msg) (m : Mach) : Plan :=
  let p := msg.payload
  let id := numAt p 0 4
  let j := newJob p
  let ss := bitsOf j.stations 6
  { absent := ss.any (fun s => decide (stationsOf m.part ≤ s)) || (!hasLaser m.part && ss.any (fun s => !hasBit j.led s))
    param := firstBad [(id == 0 || tabHas m.jobs id, 0), (j.stations == 0 || decide (64 ≤ j.stations), 4),
      (decide (64 ≤ j.dpi600), 5), (decide (64 ≤ j.led), 6), (decide (j.ring < 48 ∨ 55 < j.ring), 7), (j.maxRate == 0, 8),
      (decide (3 < j.encoder), 12), (numAt p 13 3 != 0, 13), (!hasChanter m.part && j.tplSet != 0, 40), (numAt p 44 4 != 0, 44)]
    refuse := if 8 ≤ m.jobs.length then some (stNoMemory, m.largestFree) else none
    act := fun t => { t with jobs := tabPut t.jobs id j } }

/-- JOB_DEFINE: R204, R205, R378. -/
def execJobDefine (msg : Msg) (s : State) : Host.Outcome State Fault Refusal :=
  onM (fun m => m.runCmd { opcode := 0x0301, lenMin := 48, lenMax := 48, states := inC } msg (planJobDefine msg)) s

/-! ### What a job follows (R390, R400, R427, R447) -/

/-- Whether a laser station with a screening set follows a line rate (R390, R427). -/
def Mach.laserFollows (m : Mach) (s rate : Nat) (set : List Byte) : Bool :=
  let t := m.modStn s (fun u => { u with set := set })
  let u := t.usedFacets s set
  let a := setAdvance set
  decide (rate * setPasses set ≤ 19200 * u) &&
    decide ((24567 * t.facets s * rate * 1024 * 102 : Nat) * (2 ^ 20 + t.placementMax s) ≤
      ((t.gridLimit s * (m.getA (pxcBase s + 8) 18 10) * u * a * 100 : Nat) : Int) * 2 ^ 20)

/-- Whether a station with a screening set follows a line rate (R206). -/
def Mach.stationFollows (m : Mach) (j : Job) (s : Nat) (set : List Byte) : Bool :=
  if hasBit j.led s then decide (j.maxRate ≤ ledLimit set false) else m.laserFollows s j.maxRate set

/-- The points at which a polygon's curve is judged: its corners between two speeds, and these. -/
def curveTests (pts : List (Int × Int)) (lo hi : Int) : List Int :=
  if hi < lo then [] else lo :: hi :: (pts.map Prod.fst).filter (fun x => decide (lo ≤ x ∧ x ≤ hi))

/-- Whether a polygon's curve lies within TRIM_LIM ÷ 2 of x × 60 ÷ (U × A) from ON_X to a line rate (R447). Between two corners the
two differ by a straight line, so the corners decide. -/
def Mach.curveFits (m : Mach) (s rate : Nat) (set : List Byte) : Bool :=
  let pts := m.curvePoints (8 + s)
  let trim := min 20000 (m.rdA (pxcBase s + 0x34)).toNat
  let ua := m.usedFacets s set * setAdvance set
  (curveTests pts (m.rdA (mdrBase (8 + s) + 0x304)).toNat rate).all (fun x =>
    let want : Rat := ((x * 960 : Int) : Rat) / ((max 1 ua : Nat) : Rat)
    let diff := curveAt pts (16 * x) - want
    decide (diff * 2000000 ≤ want * (trim : Rat) ∧ -diff * 2000000 ≤ want * (trim : Rat)))

/-- Whether the motors that a job takes can follow it (R447). -/
def Mach.motorsFit (m : Mach) (j : Job) (sets : List (Nat × List Byte)) : Bool :=
  (jobMotors j.stations j.led).all m.hasCurve &&
    sets.all (fun e => hasBit j.led e.1 || m.curveFits e.1 j.maxRate e.2)

/-! ### The objects of a job (R88, R206, R336, R376) -/

/-- The template sets of a job: its default and those of its queued descriptors. -/
def Job.sets (j : Job) : List Nat :=
  ((j.tplSet :: j.queue.map PageDesc.tplSet).filter (fun i => i != 0)).eraseDups

/-- A glyph store or template set of some template sets that is not loaded: its identifier. -/
def Mach.missingSet (m : Mach) (sets : List Nat) : Option Nat :=
  match sets.find? (fun i => !tabHas m.tpls i) with
  | some i => some i
  | none => (sets.flatMap (fun i => tplStores (m.tplBytes i))).find? (fun g => !tabHas m.glyphs g)

/-- What a screening set reads as: the region is missing, a codeword is uncorrectable, or its bytes. -/
inductive SetRead where
  | missing
  | error (word : Nat)
  | bytes (bs : List Byte)
  deriving DecidableEq, Repr

/-- Read the screening set in a region (R376), on every side in service. -/
def readSet (region : Nat) (x : Mem) : Mem × SetRead :=
  match tabFind x.2.regions region with
  | none => (x, .missing)
  | some r =>
    let h := readOnSides r.off 256 x
    match h.2.bad with
    | some a => (h.1, .error ((a - r.off) / 4))
    | none =>
      let total := numAt h.2.bytes 104 4
      if total < 256 ∨ 1179648 < total ∨ r.bytes < total then (h.1, .missing)
      else
        let b := readOnSides r.off total h.1
        match b.2.bad with
        | some a => (b.1, .error ((a - r.off) / 4))
        | none => (b.1, .bytes b.2.bytes)

/-- Read the screening sets of a job's stations. -/
def readSets (j : Job) (x : Mem) : Mem × List (Nat × SetRead) :=
  (bitsOf j.stations 6).foldl (fun (a : Mem × List (Nat × SetRead)) s =>
    let r := readSet (j.screens.getD s 0) a.1
    (r.1, a.2 ++ [(s, r.2)])) (x, [])

/-- The first screening set that does not serve its station, with the status it gives (R274, R376). -/
def Mach.badSet (m : Mach) (j : Job) (sets : List (Nat × SetRead)) : Option (Nat × Nat) :=
  (sets.filterMap (fun e => match e.2 with
    | .missing => some (stNotFound, j.screens.getD e.1 0)
    | .error w => some (stMemError, w)
    | .bytes bs =>
      if setOk (hasBit j.led e.1) (hasBit j.dpi600 e.1) (m.facets e.1) bs then none
      else some (stNotFound, j.screens.getD e.1 0))).head?

/-- The bytes of the screening sets that were read. -/
def setBytes (sets : List (Nat × SetRead)) : List (Nat × List Byte) :=
  sets.filterMap (fun e => match e.2 with
    | .bytes bs => some (e.1, bs)
    | _ => none)

/-- Whether a job's artwork, screening sets, templates and field data lie in slices that are ready (R88): the last two lie in the firmware
area (R264). -/
def Mach.jobReady (m : Mach) (j : Job) : Bool :=
  (j.queue.flatMap PageDesc.planes).all (fun i => match tabFind m.planes i with
    | some p => m.rangeReady p.off p.bytes
    | none => true) &&
  (bitsOf j.stations 6).all (fun s => match tabFind m.regions (j.screens.getD s 0) with
    | some r => m.rangeReady r.off r.bytes
    | none => true) && m.rangeReady 0 firmwareEnd

/-- Whether a job keeps the limits of reduced service (R88). -/
def Mach.jobLimits (m : Mach) (j : Job) : Bool :=
  j.stations &&& j.dpi600 == j.stations && decide (j.maxRate ≤ 70866) && m.jobReady j

/-! ### JOB_ARM (R206) -/

/-- The compare unit whose page-start action names a station outside a job (R206). -/
def Mach.strayUnit (m : Mach) (stations : Nat) : Option Nat :=
  (List.range 16).find? (fun u =>
    let mask := m.getA (cmpBase u + 0x14) 0 6
    m.cmpArmed u && mask &&& stations != mask)

/-- JOB_ARM's plan without its effect; the sets are none before they are read. -/
def planArm (msg : Msg) (sets : Option (List (Nat × SetRead))) (act : Job → List (Nat × List Byte) → Mach → Mach) (m : Mach) :
    Plan :=
  let id := numAt msg.payload 0 4
  match tabFind m.jobs id with
  | none => { refuse := some (stNotFound, id) }
  | some j =>
    let ss := bitsOf j.stations 6
    let got := sets.getD []
    let bad := m.badSet j got
    let bs := setBytes got
    let slow := decide (141732 < j.maxRate) ||
      (sets.isSome && bad.isNone && (bs.any (fun e => !m.stationFollows j e.1 e.2) || !m.motorsFit j bs))
    let reduced := !m.mgt m.token 31
    let inh := (ss.filter m.inhibited).foldl setBitN 0
    let ilk := b2n (decide (j.stations &&& j.led ≠ j.stations) && !m.laserPermit) + 2 * b2n (!m.hvPermit)
    { param := match m.strayUnit j.stations with
        | some u => some (0x10000 + u)
        | none => if slow then some 0 else none
      state := m.seqState != 2 || ss.any (fun s => bitOf (m.rd .a seqStat) s || bitOf (m.rd .a seqStat) (12 + s)) ||
        (reduced && !m.jobLimits j) || [SideId.a, .b].any (fun d => m.fitted d && (m.mgt d 20 || (m.side d).st == .joining)) ||
        m.bitA 0xE08000 14
      refuse :=
        if inh ≠ 0 then some (stInhibited, inh)
        else if ilk ≠ 0 then some (stInterlock, ilk)
        else match m.missingSet j.sets with
          | some i => some (stNotFound, i)
          | none => bad
      act := act j bs }

/-- SCB_CFG of a station as JOB_ARM latches it (R409). -/
def scbCfg (led dpi600 : Bool) (used : Nat) (set : List Byte) : Word :=
  let passes := if setPasses set = 4 then 2 else if setPasses set = 2 then 1 else 0
  BitVec.ofNat 32 (b2n led * 2 ^ 31 + b2n dpi600 * 2 ^ 30 + passes * 2 ^ 28 + b2n (setMulti set) * 2 ^ 27 +
    setAlign set * 2 ^ 25 + (if led then 0 else used) * 2 ^ 21 + setPlanes set * 2 ^ 18 + setLanes set % 64 * 2 ^ 12 +
    setDerate set * 2 ^ 5)

/-- The emitters of a laser station as a job finds them: spares stand in by the set's positions (R394), from the first sweep on. -/
def Mach.armSpares (m : Mach) (s : Nat) : Mach :=
  let m1 := (((m.wrB (scbBase s + 0x18) 0).modStn s (fun t => { t with subs := [] })).assignSpares s).markSweeps s
  m1.modStn s (fun t => { t with subs := t.subs.map (fun u => { u with first := -(2 ^ 63) }) })

/-- The beam channels of an LED station (R430): lanes, clock and latch are LVDS, the others off. -/
def Mach.armLanes (m : Mach) (s : Nat) (set : List Byte) : Mach :=
  (List.range 34).foldl (fun t b => t.putB (beamBase s b) 28 3 (if decide (b < setLanes set) || decide (32 ≤ b) then 3 else 0)) m

/-- JOB_ARM takes a station (R317, R376, R380, R401, R406 to R409, R414, R430, R435). -/
def Mach.armStation (m : Mach) (id : Nat) (j : Job) (s : Nat) (set : List Byte) : Mach :=
  let led := hasBit j.led s
  let m1 := m.modStn s (fun u => { Station.idle with
    job := id, set := set, trc := setCurves set, spareFail := u.spareFail, firstLines := u.firstLines, lastPage := u.lastPage
    dark := m.railsBarred s })
  let m2 := ((m1.calArm s).putB (scbBase s) 29 3 1).setB (scbBase s) 28 false
  let m3 := (((m2.wrB (ovsLag s) 0).wrB (scbBase s + 8) 0).wrB (scbBase s + 0xC) 0).wrB (scbBase s + 0x20)
    (scbCfg led (hasBit j.dpi600 s) (m2.usedFacets s set) set)
  let m4 := (m3.wrB (scbBase s + 0x24) (BitVec.ofNat 32 (if led then ledLimit set false else 0))).wrB (scbBase s + 0x28)
    (BitVec.ofNat 32 (if led then 65537 * setStrobe set else 0))
  let m5 := (m4.putB (pxcBase s) 30 2 (if led then 2 else 1)).wrB (pxcStat s) (BitVec.ofNat 32 ((if led then 4 else 1) * 2 ^ 29))
  let m6 := [0x24, 0x28, 0x2C].foldl (fun t o => t.wrB (pxcBase s + o) 0) m5
  let m7 := if led then (m6.wrB (pxcBase s + 0x18) (BitVec.ofNat 32 (1000 * numAt set 25 1))).armLanes s set
            else (m6.gridFollow s).armSpares s
  let m8 := ((m7.putB (decBase s + 0x1C) 0 8 0).wrB (decBase s + 0x28) 0xFFFF).modDec s Decoder.rest
  ((m8.putB (ligStn s) 0 16 0).setB (ligStn s) 30 false).setB (ligStn s) 31 (m8.part != .w9d)

/-- The limits that COUNTER segments of a template set put on counters (R353). -/
def Mach.takeLimits (m : Mach) (set : Nat) : Mach :=
  let t := m.tplBytes set
  ((List.range (tplSegments t)).filter (fun g => segKind t g == 2)).foldl (fun u g =>
    let c := numAt t (segmentAt t g + 1) 1
    let top := 10 ^ (numAt t (segmentAt t g + 2) 2 % 32) - 1
    u.modCounter c (fun x => { x with limit := some (min top (x.limit.getD top)) })) m

/-- The tokens of a job's stations are authenticated at JOB_ARM (R639). -/
def Mach.armTokens (m : Mach) (stations : Nat) : Mach :=
  (List.range 24).foldl (fun t i =>
    if hasBit stations (i / 4) && tabHas t.tokens i then
      (t.modToken i (fun x => { x with armed := x.state == 1 })).askToken i
    else t) m

/-- A job is armed (R189, R206, R238, R239, R353, R372, R432, R447, R514). -/
def Mach.armJob (m : Mach) (id : Nat) (j : Job) (sets : List (Nat × List Byte)) : Mach :=
  let limited := !m.mgt m.token 31
  let m1 := { m with
    armed := id, jobs := tabPut m.jobs id { j with limited := limited }, feed := []
    ilk := { m.ilk with laserEnabled := m.laserPermit }
    counters := tabMap (fun _ c => { c with limit := none, low := false }) m.counters }
  let m2 := j.sets.foldl (fun t i => t.takeLimits i) m1
  let m3 := sets.foldl (fun t e => t.armStation id j e.1 e.2) m2
  let m4 := ((m3.wrB 0x50000C 0).wrB 0x500010 0x7FFFFFFF).wrB 0x500014 0
  let m5 := (List.range 4).foldl (fun t n => (t.latchPair n).modEnc n (fun e => { e with highest := t.encPos n, reversed := false })) m4
  let m6 := (jobMotors j.stations j.led).foldl (fun t n => if t.hasMotor n then t.takeMotor n else t) m5
  let m7 := m6.ownOutputs (jobOutputs m6.part j.stations)
  ((m7.armTokens j.stations).setEng .armed)

/-- JOB_ARM's row. -/
def cmdJobArm : CmdDef := { opcode := 0x0302, lenMin := 4, lenMax := 4, states := inC }

/-- JOB_ARM's plan. -/
def planJobArm (msg : Msg) (sets : Option (List (Nat × SetRead))) (m : Mach) : Plan :=
  planArm msg sets (fun j bs t => t.armJob (numAt msg.payload 0 4) j bs) m

/-- JOB_ARM: R206. The screening sets are read once the command is found new, and before its parameters are judged, since the
limits of R390 and R427 come from them. -/
def execJobArm (msg : Msg) (s : State) : Host.Outcome State Fault Refusal :=
  onMem (fun img m =>
    match tabFind m.jobs (numAt msg.payload 0 4) with
    | none => (img, m.runCmd cmdJobArm msg (planJobArm msg none))
    | some j =>
      if m.accepts { cmdJobArm with states := inCAPDF } msg {} then
        let r := readSets j (img, m)
        (r.1.1, r.1.2.runCmd cmdJobArm msg (planJobArm msg (some r.2)))
      else (img, m.runCmd cmdJobArm msg (planJobArm msg none))) s

/-! ### JOB_END, JOB_ABORT, JOB_READ, JOB_DELETE (R189, R204) -/

/-- The checks of JOB_END and JOB_ABORT: the job is the armed one. -/
def planEnding (msg : Msg) (m : Mach) (later : AwaitKind) (act : Mach → Mach) : Plan :=
  let id := numAt msg.payload 0 4
  { state := tabHas m.jobs id && m.armed != id
    refuse := if tabHas m.jobs id then none else some (stNotFound, id)
    reply := m.jobCounts id
    later := some later
    act := act }

/-- The engine drains; with no page in flight the job is at its end (R189). -/
def Mach.endJob (m : Mach) : Mach :=
  let m1 := m.setEng .draining
  if m1.pages.isEmpty then m1.reachConfigured else m1

/-- JOB_END: R189, R204. -/
def execJobEnd (msg : Msg) (s : State) : Host.Outcome State Fault Refusal :=
  onM (fun m => m.runCmd { opcode := 0x0303, lenMin := 4, lenMax := 4, states := 6 } msg
    (fun t => planEnding msg t (.jobEnd (numAt msg.payload 0 4)) Mach.endJob)) s

/-- JOB_ABORT: R189, R204. -/
def execJobAbort (msg : Msg) (s : State) : Host.Outcome State Fault Refusal :=
  onM (fun m => m.runCmd { opcode := 0x0304, lenMin := 4, lenMax := 4, states := 14 } msg
    (fun t => planEnding msg t (.jobAbort (numAt msg.payload 0 4)) Mach.abortJob)) s

/-- JOB_READ's plan. The state is the engine's for the armed job, CONFIGURED for another. -/
def planJobRead (msg : Msg) (m : Mach) : Plan :=
  let id := numAt msg.payload 0 4
  match tabFind m.jobs id with
  | none => { refuse := some (stNotFound, id) }
  | some j => { reply := ([if m.armed = id then engCode m.eng else 1, j.triggered, j.committed, j.completed, j.withdrawn, j.good,
      j.reject, j.void]).flatMap (leBytes 4) }

/-- JOB_READ: R204. -/
def execJobRead (msg : Msg) (s : State) : Host.Outcome State Fault Refusal :=
  onM (fun m => m.runCmd { opcode := 0x0307, lenMin := 4, lenMax := 4, states := inCAPDF } msg (planJobRead msg)) s

/-- JOB_DELETE's plan. -/
def planJobDelete (msg : Msg) (m : Mach) : Plan :=
  let id := numAt msg.payload 0 4
  { state := tabHas m.jobs id && m.armed == id
    refuse := if tabHas m.jobs id then none else some (stNotFound, id)
    act := fun t => { t with jobs := tabErase t.jobs id } }

/-- JOB_DELETE: R204. -/
def execJobDelete (msg : Msg) (s : State) : Host.Outcome State Fault Refusal :=
  onM (fun m => m.runCmd { opcode := 0x0308, lenMin := 4, lenMax := 4, states := inCF } msg (planJobDelete msg)) s

/-! ### PAGE_QUEUE and PAGE_WITHDRAW (R197, R207, R208, R338) -/

/-- A page descriptor. -/
def newDesc (p : List Byte) : PageDesc :=
  { pageNo := numAt p 4 4, length := numAt p 8 4, compare := numAt p 12 1, panels := numAt p 13 1, rep := numAt p 14 2,
    planes := (List.range 6).map (fun s => numAt p (16 + 4 * s) 4), tplSet := numAt p 40 4, layout := numAt p 44 4, served := 0 }

/-- A descriptor joins the queue: an earlier one that repeats without end on its compare unit ends (R208). -/
def Job.enqueue (j : Job) (d : PageDesc) : Job :=
  { j with queue := j.queue.filter (fun e => !(e.compare == d.compare && e.rep == 0)) ++ [d], nextPage := j.nextPage + 1 }

/-- PAGE_QUEUE's plan. -/
def planPageQueue (msg : Msg) (m : Mach) : Plan :=
  let p := msg.payload
  let id := numAt p 0 4
  let d := newDesc p
  let job := tabFind m.jobs id
  let set := if d.tplSet = 0 then (job.map Job.tplSet).getD 0 else d.tplSet
  let t := m.tplBytes set
  let known := set != 0 && tabHas m.tpls set
  let lay := known && decide (d.layout < tplLayouts t)
  let tall := lay && (List.range (layoutPanels t d.layout)).any (fun i =>
    decide (d.length < numAt t (panelAt t d.layout i + 4) 4 + numAt t (panelAt t d.layout i + 8) 4))
  let mine := (bitsOf ((job.map Job.stations).getD 0) 6).map (fun s => d.planes.getD s 0)
  let lost := mine.find? (fun i => i != 0 && i != 0xFFFFFFFF && !tabHas m.planes i)
  let armed := m.armed == id && engLive m.eng
  { param := firstBad [(job.any (fun j => j.nextPage != d.pageNo), 4),
      (decide (d.length < 945 ∨ 94488 < d.length) || tall, 8), (decide (15 < d.compare), 12),
      (d.panels == 0 || decide (64 < d.panels) || (lay && d.panels != layoutPanels t d.layout), 13), (known && !lay, 44),
      (numAt p 48 16 != 0, 48)]
    state := mine.any (fun i => match tabFind m.planes i with
      | some q => !m.rangeReady q.off q.bytes
      | none => false)
    refuse := match job with
      | none => some (stNotFound, id)
      | some j =>
        match lost with
        | some i => some (stNotFound, i)
        | none =>
          match m.missingSet (if set = 0 then [] else [set]) with
          | some i => if armed || !known then some (stNotFound, i) else
              (if 256 ≤ j.queue.length then some (stQueueFull, 0) else none)
          | none => if 256 ≤ j.queue.length then some (stQueueFull, 0) else none
    reply := leBytes 4 ((job.map (fun j => (j.enqueue d).queue.length)).getD 0)
    act := fun u =>
      let u1 := { u with jobs := tabUpd u.jobs id (fun j => j.enqueue d) }
      if armed && set != 0 then u1.takeLimits set else u1 }

/-- PAGE_QUEUE: R207, R208, R338. -/
def execPageQueue (msg : Msg) (s : State) : Host.Outcome State Fault Refusal :=
  onM (fun m => m.runCmd { opcode := 0x0305, lenMin := 64, lenMax := 64, states := inCAP } msg (planPageQueue msg)) s

/-- PAGE_WITHDRAW's plan: pages of that number in flight that have not committed; else a descriptor that has not started. -/
def planPageWithdraw (msg : Msg) (m : Mach) : Plan :=
  let id := numAt msg.payload 0 4
  let no := numAt msg.payload 4 4
  let flying := m.pages.filter (fun e => e.2.job == id && e.2.pageNo == no)
  let open_ := tabKeys (flying.filter (fun e => !e.2.committed))
  { refuse := match tabFind m.jobs id with
      | none => some (stNotFound, id)
      | some j =>
        if !open_.isEmpty then none
        else if !flying.isEmpty || j.exposed.contains no then some (stCommitted, no)
        else if j.queue.any (fun d => d.pageNo == no) then none
        else some (stNotFound, no)
    act := fun t =>
      if open_.isEmpty then
        { t with jobs := tabUpd t.jobs id (fun j => { j with queue := j.queue.filter (fun d => d.pageNo != no) }) }
      else open_.foldl (fun u k => u.withdrawPage k fWithdrawn) t }

/-- PAGE_WITHDRAW: R34, R197. -/
def execPageWithdraw (msg : Msg) (s : State) : Host.Outcome State Fault Refusal :=
  onM (fun m => m.runCmd { opcode := 0x0306, lenMin := 8, lenMax := 8, states := 6 } msg (planPageWithdraw msg)) s

end Sys2Proof.Machine
end

