-- ==== Sys2Proof/Machine/Fields.lean ====
section
/-!
DEFINITION. The templates and fields group (R210): template sets (R336), glyph stores (R346), counters (R351, R352), lots (R342) and
the host feed (R349).
-/

namespace Sys2Proof.Machine

/-! ### Template sets and glyph stores -/

/-- The template sets that defined jobs, their descriptors and pages in flight refer to (R186, R197). -/
def Mach.setsUsed (m : Mach) : List Nat :=
  m.jobs.flatMap (fun e => e.2.sets) ++ m.pages.map (fun e => e.2.tplSet)

/-- The template sets of the armed job and of pages in flight. -/
def Mach.setsArmed (m : Mach) : List Nat :=
  ((tabFind m.jobs m.armed).map Job.sets).getD [] ++ m.pages.map (fun e => e.2.tplSet)

/-- TPL_LOAD's plan. -/
def planTplLoad (msg : Msg) (m : Mach) : Plan :=
  let id := m.newId m.tpls 710
  let buf := hostBuf msg 0
  { absent := !hasChanter m.part
    param := buf.bind tplBad
    refuse := if buf.isNone then some (stHostFault, 0)
              else if 16 ≤ m.tpls.length then some (stNoMemory, m.largestFree) else none
    reply := leBytes 4 id
    act := fun t => { t with tpls := tabPut t.tpls id { bytes := buf.getD [], damaged := false } } }

/-- TPL_LOAD: R336. -/
def execTplLoad (msg : Msg) (s : State) : Host.Outcome State Fault Refusal :=
  onM (fun m => m.runCmd { opcode := 0x0501, lenMin := 16, lenMax := 16, states := inCAPD } msg (planTplLoad msg)) s

/-- TPL_DELETE's plan. -/
def planTplDelete (msg : Msg) (m : Mach) : Plan :=
  let id := numAt msg.payload 0 4
  { absent := !hasChanter m.part
    refuse := if !tabHas m.tpls id then some (stNotFound, id)
              else if m.setsUsed.contains id then some (stInUse, id) else none
    act := fun t => { t with tpls := tabErase t.tpls id } }

/-- TPL_DELETE: R197, R210. -/
def execTplDelete (msg : Msg) (s : State) : Host.Outcome State Fault Refusal :=
  onM (fun m => m.runCmd { opcode := 0x0502, lenMin := 4, lenMax := 4, states := inCAPDF } msg (planTplDelete msg)) s

/-- GLYPH_LOAD's plan. A store in use is refused as R192 has it for a condition of its row. -/
def planGlyphLoad (msg : Msg) (m : Mach) : Plan :=
  let id := numAt msg.payload 0 4
  let buf := hostBuf msg 4
  { absent := !hasChanter m.part
    param := if 15 < id then some 0 else buf.bind glyphBad
    state := m.setsArmed.any (fun i => (tplStores (m.tplBytes i)).contains id)
    refuse := if buf.isNone then some (stHostFault, 0) else none
    act := fun t => { t with glyphs := tabPut t.glyphs id { bytes := buf.getD [], damaged := false } } }

/-- GLYPH_LOAD: R346. -/
def execGlyphLoad (msg : Msg) (s : State) : Host.Outcome State Fault Refusal :=
  onM (fun m => m.runCmd { opcode := 0x0503, lenMin := 20, lenMax := 20, states := inCAPD } msg (planGlyphLoad msg)) s

/-! ### Counters (R351, R352) -/

/-- Whether COUNTER_SET with a value starts a new epoch (R352). -/
def Counter.restarts (c : Counter) (v : Nat) : Bool :=
  match c.consumed with
  | some x => decide (v ≤ x)
  | none => false

/-- A counter takes a new NEXT (R352); it is exhausted and low no more. -/
def Counter.setNext (c : Counter) (v : Nat) : Counter :=
  if c.restarts v then
    { c with next := v, epoch := c.epoch + 1, consumed := none, committed := none, exhausted := false, low := false }
  else { c with next := v, exhausted := false, low := false }

/-- COUNTER_SET's plan. -/
def planCounterSet (msg : Msg) (m : Mach) : Plan :=
  let c := numAt msg.payload 0 4
  let v := numAt msg.payload 8 8
  let x := m.counterOf c
  { absent := !hasChanter m.part
    param := firstBad [(decide (63 < c), 0), (decide (0xFFFFFFFFFFFFFFFE < v) || (x.restarts v && decide (65535 ≤ x.epoch)), 8)]
    act := fun t => t.modCounter c (fun y => y.setNext v) }

/-- COUNTER_SET: R352. -/
def execCounterSet (msg : Msg) (s : State) : Host.Outcome State Fault Refusal :=
  onM (fun m => m.runCmd { opcode := 0x0504, lenMin := 16, lenMax := 16, states := inCF } msg (planCounterSet msg)) s

/-- CONSUMED and COMMITTED read all ones while none (R351). -/
def counterWord (v : Option Nat) : Nat := v.getD 0xFFFFFFFFFFFFFFFF

/-- COUNTER_READ's plan. -/
def planCounterRead (msg : Msg) (m : Mach) : Plan :=
  let c := numAt msg.payload 0 4
  let x := m.counterOf c
  { absent := !hasChanter m.part
    param := if 63 < c then some 0 else none
    reply := leBytes 8 x.next ++ leBytes 8 (counterWord x.consumed) ++ leBytes 8 (counterWord x.committed) }

/-- COUNTER_READ: R210, R351. -/
def execCounterRead (msg : Msg) (s : State) : Host.Outcome State Fault Refusal :=
  onM (fun m => m.runCmd { opcode := 0x0505, lenMin := 4, lenMax := 4, states := inCAPDF } msg (planCounterRead msg)) s

/-! ### Lots (R342) -/

/-- LOT_SET's plan: the lot field identifier is the lot's number. -/
def planLotSet (msg : Msg) (m : Mach) : Plan :=
  let lot := numAt msg.payload 0 4
  { absent := !hasChanter m.part
    param := if 15 < lot then some 0 else none
    act := fun t => { t with lots := tabPut t.lots lot (msg.payload.drop 4) } }

/-- LOT_SET: R342. -/
def execLotSet (msg : Msg) (s : State) : Host.Outcome State Fault Refusal :=
  onM (fun m => m.runCmd { opcode := 0x0506, lenMin := 5, lenMax := 68, states := inCAPD } msg (planLotSet msg)) s

/-! ### The host feed (R349) -/

/-- The items of a feed entry: what they are, or none where they do not fit the area or are not followed by zeros. -/
def feedItems : Nat → List Byte → Option (List (List Byte))
  | 0, area => if area.all (· == 0) then some [] else none
  | n + 1, area =>
    match area with
    | [] => none
    | l :: rest =>
      if 223 < l.toNat ∨ rest.length < l.toNat then none
      else (feedItems n (rest.drop l.toNat)).map (fun xs => rest.take l.toNat :: xs)

/-- What the pages of a job ask of a feed entry (R349): every page has a template, so that SERIAL is 0; none has, so that HEIGHT is 1 or
more; or both kinds are queued, and which page takes the entry is not known yet. -/
inductive FeedPages where
  | templated
  | templateLess
  | either
  deriving DecidableEq, Repr

/-- The pages of a job, as its own template set and those of its queued pages tell. -/
def Job.feedPages (j : Job) : FeedPages :=
  if j.tplSet ≠ 0 then .templated else if j.queue.any (fun d => d.tplSet != 0) then .either else .templateLess

/-- A feed entry of 256 bytes that passes its checks. -/
def feedEntry (armed seq : Nat) (kind : FeedPages) (e : List Byte) : Option FeedEntry :=
  let rej := numAt e 24 1
  let fits := numAt e 0 4 == seq && numAt e 4 4 == armed && (decide (rej ≤ 7) || rej == 0xFF) && decide (numAt e 25 1 ≤ 8) &&
    numAt e 26 6 == 0 && !(kind == .templateLess && numAt e 20 4 == 0) && !(kind == .templated && numAt e 8 8 != 0)
  if fits then
    (feedItems (numAt e 25 1) ((e.drop 32).take 224)).map (fun items =>
      { seq := seq, serial := numAt e 8 8, y := numAt e 16 4, height := numAt e 20 4, rejOut := rej, items := items,
        area := (e.drop 32).take 224 })
  else none

/-- The entries that a FEED_SUBMIT buffer adds: in order, up to the first that fails or the feed's room. -/
def feedTake (armed : Nat) (kind : FeedPages) : Nat → Nat → List (List Byte) → List FeedEntry
  | _, _, [] => []
  | 0, _, _ => []
  | room + 1, seq, e :: rest =>
    match feedEntry armed seq kind e with
    | some x => x :: feedTake armed kind room (seq + 1) rest
    | none => []

/-- FEED_SUBMIT's plan. -/
def planFeedSubmit (msg : Msg) (m : Mach) : Plan :=
  match hostBuf msg 0 with
  | none => { refuse := some (stHostFault, 0) }
  | some bs =>
    let seq := ((tabFind m.jobs m.armed).map Job.feedSeq).getD 0
    let kind := ((tabFind m.jobs m.armed).map Job.feedPages).getD .either
    let new := feedTake m.armed kind (8192 - m.feed.length) (seq + 1) (chunks 256 (bs.length / 256) bs)
    { param := if bs.length % 256 = 0 then none else some 8
      reply := leBytes 4 new.length
      act := fun t => { t with feed := t.feed ++ new, jobs := tabUpd t.jobs t.armed (fun j => { j with feedSeq := seq + new.length }) } }

/-- FEED_SUBMIT: R349. -/
def execFeedSubmit (msg : Msg) (s : State) : Host.Outcome State Fault Refusal :=
  onM (fun m => m.runCmd { opcode := 0x0507, lenMin := 16, lenMax := 16, states := 14 } msg (planFeedSubmit msg)) s

end Sys2Proof.Machine
end

