-- ==== Sys2Proof/Machine/P256.lean ====
section
/-!
DEFINITION. ECDSA P-256 verification (R620, FIPS 186-5) and the reading of a certificate's public key (R630, DER).
-/

namespace Sys2Proof.Machine

/-- The prime of P-256. -/
def ecP : Nat := 2 ^ 256 - 2 ^ 224 + 2 ^ 192 + 2 ^ 96 - 1

/-- The order of the base point. -/
def ecN : Nat := 0xFFFFFFFF00000000FFFFFFFFFFFFFFFFBCE6FAADA7179E84F3B9CAC2FC632551

/-- The coefficient b of the curve. -/
def ecB : Nat := 0x5AC635D8AA3A93E7B3EBBD55769886BC651D06B0CC53B0F63BCE3C3E27D2604B

/-- The base point. -/
def ecG : Nat × Nat :=
  (0x6B17D1F2E12C4247F8BCE6E563A440F277037D812DEB33A0F4A13945D898C296,
   0x4FE342E2FE1A7F9B8EE7EB4A7C0F9E162BCE33576B315ECECBB6406837BF51F5)

/-- A power modulo `q`, by the `k` low bits of the exponent. -/
def powMod (q : Nat) : Nat → Nat → Nat → Nat
  | 0, _, _ => 1
  | k + 1, a, e =>
    let r := powMod q k (a * a % q) (e / 2)
    if e % 2 = 1 then a * r % q else r

/-- The inverse modulo a prime. -/
def invMod (q a : Nat) : Nat := powMod q 256 (a % q) (q - 2)

/-- The sum of two points, none the point at infinity. -/
def ecAdd : Option (Nat × Nat) → Option (Nat × Nat) → Option (Nat × Nat)
  | none, q => q
  | p, none => p
  | some (x1, y1), some (x2, y2) =>
    if x1 = x2 ∧ (y1 + y2) % ecP = 0 then none
    else
      let slope := if x1 = x2 then (3 * x1 * x1 + (ecP - 3)) * invMod ecP (2 * y1) % ecP
        else (y2 + (ecP - y1)) * invMod ecP (x2 + (ecP - x1)) % ecP
      let x3 := (slope * slope + 2 * ecP - x1 - x2) % ecP
      some (x3, (slope * (x1 + (ecP - x3)) + (ecP - y1)) % ecP)

/-- A multiple of a point, by the `k` low bits of the factor. -/
def ecMul : Nat → Nat → Option (Nat × Nat) → Option (Nat × Nat)
  | 0, _, _ => none
  | k + 1, f, p =>
    let r := ecMul k (f / 2) (ecAdd p p)
    if f % 2 = 1 then ecAdd p r else r

/-- The number that big-endian bytes spell. -/
def beNat (bs : List Byte) : Nat := bs.foldl (fun v b => v * 256 + b.toNat) 0

/-- The point that 65 bytes spell (SEC1 uncompressed), where it lies on the curve. -/
def ecPoint (bs : List Byte) : Option (Nat × Nat) :=
  let x := beNat (bytesAt bs 1 32)
  let y := beNat (bytesAt bs 33 32)
  if bs.length = 65 ∧ numAt bs 0 1 = 4 ∧ x < ecP ∧ y < ecP ∧ y * y % ecP = (x * x * x + (ecP - 3) * x + ecB) % ecP then some (x, y)
  else none

/-- Whether r and s, 32 big-endian bytes each, are a signature over a message under a public key (R632). -/
def ecdsaOk (key msg sig : List Byte) : Bool :=
  let r := beNat (bytesAt sig 0 32)
  let s := beNat (bytesAt sig 32 32)
  match ecPoint key with
  | none => false
  | some q =>
    if r = 0 ∨ ecN ≤ r ∨ s = 0 ∨ ecN ≤ s then false
    else
      let w := invMod ecN s
      let e := beNat (sha256 msg)
      match ecAdd (ecMul 256 (e * w % ecN) (some ecG)) (ecMul 256 (r * w % ecN) (some q)) with
      | none => false
      | some v => v.1 % ecN == r

/-- A DER element at the front of bytes: its tag, its contents, and the bytes after it. -/
def derHead (bs : List Byte) : Option (Nat × List Byte × List Byte) :=
  let l := numAt bs 1 1
  let k := if l < 128 then 0 else l - 128
  let len := if l < 128 then l else beNat (bytesAt bs 2 k)
  if bs.length < 2 ∨ 4 < k ∨ l = 128 ∨ bs.length < 2 + k + len then none
  else some (numAt bs 0 1, (bs.drop (2 + k)).take len, bs.drop (2 + k + len))

/-- The elements of a DER sequence's contents, at most `fuel`. -/
def derList : Nat → List Byte → Option (List (Nat × List Byte))
  | 0, bs => if bs.isEmpty then some [] else none
  | fuel + 1, bs =>
    if bs.isEmpty then some []
    else match derHead bs with
      | none => none
      | some (t, c, rest) => (derList fuel rest).map (fun xs => (t, c) :: xs)

/-- The subject public key of an X.509 v3 certificate: the bits of its key information, without the count of unused bits. -/
def certKey (bs : List Byte) : Option (List Byte) :=
  match derHead bs with
  | some (0x30, cert, []) =>
    match (derList 3 cert) with
    | some ((0x30, tbs) :: _) =>
      match derList 16 tbs with
      | some ((0xA0, _) :: _ :: _ :: _ :: _ :: _ :: (0x30, spki) :: _) =>
        match derList 2 spki with
        | some [_, (0x03, 0 :: key)] => some key
        | _ => none
      | _ => none
    | _ => none
  | _ => none

end Sys2Proof.Machine
end

