-- ==== Sys2Proof/Machine/Interlocks.lean ====
section
/-!
DEFINITION. The interlock loops on X37 (R72 to R75, R432, R520, R523): a channel opens or closes, a loop locks out.
-/

namespace Sys2Proof.Machine

/-- Change the interlock loops. -/
def Mach.modIlk (m : Mach) (f : Interlocks → Interlocks) : Mach := { m with ilk := f m.ilk }

/-- Whether a channel of a loop is closed. -/
def Interlocks.closed (i : Interlocks) : ILoop → LoopChan → Bool
  | .laser, .a => i.laserA
  | .laser, .b => i.laserB
  | .hv, .a => i.hvA
  | .hv, .b => i.hvB

/-- Whether a loop is closed: both of its channels are. -/
def Interlocks.shut (i : Interlocks) (l : ILoop) : Bool := i.closed l .a && i.closed l .b

/-- A channel of a loop opens or closes. -/
def Interlocks.setChan (i : Interlocks) (on : Bool) : ILoop → LoopChan → Interlocks
  | .laser, .a => { i with laserA := on }
  | .laser, .b => { i with laserB := on }
  | .hv, .a => { i with hvA := on }
  | .hv, .b => { i with hvB := on }

/-- A loop locks out, or its lockout clears. -/
def Interlocks.setLock (i : Interlocks) (on : Bool) : ILoop → Interlocks
  | .laser => { i with laserLock := on }
  | .hv => { i with hvLock := on }

/-- Whether a loop is locked out. -/
def Interlocks.locked (i : Interlocks) : ILoop → Bool
  | .laser => i.laserLock
  | .hv => i.hvLock

/-- All laser drive and every LED strobe is off (R432): sweeps in progress are cut short and their lines are lost. -/
def Mach.laserOff (m : Mach) : Mach :=
  let m1 := m.modIlk (fun i => { i with laserEnabled := false })
  (List.range 6).foldl (fun t s => if t.isLaser s then t.loseOpen s 9 else t) m1

/-- EMIT_IND on X37 (R72, R75): it follows the laser loop's permit, not the presence of exposure. -/
def Mach.emitInd (m : Mach) : Bool := m.laserPermit

/-- HV_IND on X37 (R72, R75): it follows the HV loop's permit. -/
def Mach.hvInd (m : Mach) : Bool := m.hvPermit

/-- The number of a loop's channel in the log. -/
def chanNumber : LoopChan → Int
  | .a => 0
  | .b => 1

/-- LASER_INTERLOCK: R73, R74, R432. A second channel that opens changes nothing more. -/
def execLaserInterlock (chan : LoopChan) (s : State) : Host.Outcome State Fault Refusal :=
  onM (fun m =>
    let m0 := m.modIlk (fun i => i.setChan false .laser chan)
    if !m.ilk.shut .laser then m0
    else
      let m1 := m0.laserOff.logM 0x0C noInst 0x0009 3 [chanNumber chan]
      if engLive m.eng then (m1.raise 2).faultEngine 1 else m1) s

/-- HV_LOOP_OPEN: R73, R74, R520. -/
def execHvLoopOpen (chan : LoopChan) (s : State) : Host.Outcome State Fault Refusal :=
  onM (fun m =>
    let m0 := m.modIlk (fun i => i.setChan false .hv chan)
    if m.ilk.shut .hv then m0.hvOpened else m0) s

/-- INTERLOCK_LOCKOUT: R75. It happens only while the channels disagree. -/
def execInterlockLockout (loop : ILoop) (s : State) : Host.Outcome State Fault Refusal :=
  onM (fun m =>
    if m.ilk.closed loop .a = m.ilk.closed loop .b then m else m.modIlk (fun i => i.setLock true loop)) s

/-- INTERLOCK_LOOP_CLOSED: R75, R535. -/
def execInterlockLoopClosed (loop : ILoop) (chan : LoopChan) (bothOpenMs : Nat) (s : State) :
    Host.Outcome State Fault Refusal :=
  onM (fun m =>
    let m1 := m.modIlk (fun i => i.setChan true loop chan)
    let m2 := if m1.ilk.shut loop && m1.ilk.locked loop && decide (100 ≤ bothOpenMs) then
        m1.modIlk (fun i => i.setLock false loop) else m1
    if loop = .hv && !m.ilk.shut .hv && m2.ilk.shut .hv then (m2.raise 100).logCtl noInst 0x0106 0 else m2) s

end Sys2Proof.Machine
end

