-- ==== Sys2Proof/Machine/Records.lean ====
section
/-!
DEFINITION. Checkpoints of the record chain (R364 to R367, R375, R631): when they are made, signed and late.
-/

namespace Sys2Proof.Machine

/-- One entry of a chain made anew (R365, R366), given the PREV_HASH and the CHAIN_HEAD that the entry before it gives, none where the chain
up to it stands: a record takes PREV_HASH; a checkpoint that is not signed takes CHAIN_HEAD and, where one is given, the signing side. -/
def relink (signer : Option SideId) (acc : Tab ChainEntry × Option (List Byte × List Byte)) (e : Nat × ChainEntry) :
    Tab ChainEntry × Option (List Byte × List Byte) :=
  let b := e.2.bytes
  let head := (acc.2.map Prod.snd).getD (b.drop 32)
  if e.2.isCkpt then
    if e.2.signed || (acc.2.isNone && signer.isNone) then (acc.1 ++ [e], acc.2)
    else
      let side := match signer with
        | some d => leBytes 1 (sideCode d)
        | none => (b.drop 9).take 1
      let body := b.take 9 ++ side ++ (b.drop 10).take 22 ++ head
      (acc.1 ++ [(e.1, { e.2 with bytes := body })], some ((sha256 body).take 16, head))
  else
    let nb := match acc.2 with
      | some p => b.take 112 ++ p.1
      | none => b
    let h := sha256 nb
    (acc.1 ++ [(e.1, { e.2 with bytes := nb })], acc.2.map (fun _ => (h.take 16, h)))

/-- The chain takes entries made anew, and what follows them. -/
def Mach.relinked (m : Mach) (r : Tab ChainEntry × Option (List Byte × List Byte)) : Mach :=
  match r with
  | (es, some p) => { m with records := { m.records with entries := es, prevHash := p.1, lastHead := p.2 } }
  | (_, none) => m

/-- The chain after its unsigned checkpoints pass to another signing side (R366, R594): nothing from the first of them on is published,
so the entries after it are chained anew. -/
def Mach.rechain (m : Mach) : Mach := m.relinked (m.records.entries.foldl (relink (some m.token)) ([], none))

/-- CHECKPOINT_TIMER: R366. -/
def execCheckpointTimer (s : State) : Host.Outcome State Fault Refusal :=
  onM (fun m => if m.records.ckptTimer then m.makeCheckpoint else m) s

/-- The first checkpoint that is not signed. -/
def Mach.unsigned (m : Mach) : Option (Nat × ChainEntry) := m.records.entries.find? (fun e => e.2.isCkpt && !e.2.signed)

/-- A checkpoint is signed (R364): its TIME_US is the time of signing, and the entries after it, none of which is published, follow its body. -/
def Mach.signAt (m : Mach) (seq : Nat) (e : ChainEntry) : Mach :=
  let body := e.bytes.take 24 ++ leBytes 8 m.now ++ e.bytes.drop 32
  let sig := Config.sign m.token.toNat (m.side m.token).core.gen body
  let done : ChainEntry := { e with bytes := body ++ bytesAt sig 0 64, signed := true }
  let before := m.records.entries.filter (fun x => decide (x.1 < seq))
  let later := m.records.entries.filter (fun x => decide (seq < x.1))
  m.relinked (later.foldl (relink none) (before ++ [(seq, done)], some ((sha256 body).take 16, e.bytes.drop 32)))

/-- CHECKPOINT_SIGNED: R364, R366, R631, R644. The core signs only its own side's bodies, in rising order. -/
def execCheckpointSigned (s : State) : Host.Outcome State Fault Refusal :=
  onM (fun m =>
    let core := (m.side m.token).core
    match m.unsigned with
    | none => m
    | some (seq, e) =>
      if core.error || !m.inService m.token || seq ≤ core.lastSeq || numAt e.bytes 9 1 != sideCode m.token then m
      else
        let m2 := (m.signAt seq e).modSide m.token (fun d => { d with core := { d.core with lastSeq := seq } })
        (m2.put m.token 0xFE0000 0 8 ((m2.get m.token 0xFE0000 0 8 + 1) % 256)).publish) s

/-- CHECKPOINT_LATE: R375. -/
def execCheckpointLate (s : State) : Host.Outcome State Fault Refusal :=
  onM (fun m => if m.unsigned.isSome then (m.raise 82).logM 0x05 noInst 0x000A 2 [] else m) s

end Sys2Proof.Machine
end

