-- ==== Sys2Proof/Machine/Redundancy.lean ====
section
/-!
DEFINITION. Side redundancy (R579 to R618): Ligature, the matching of stations, takeover and handover, side faults, joining, and
the fault classes.
-/

namespace Sys2Proof.Machine

/-! ### Registers -/

/-- A log entry of redundancy. -/
def Mach.logLig (m : Mach) (s code sev : Nat) (args : List Int) (cls : Nat := 0xFFFF) : Mach := m.logM 0x0F s code sev args cls

/-- Whether a station runs in the armed job and its lines agree on both sides. -/
def Mach.matched (m : Mach) (s : Nat) : Bool := m.bitA (ligStn s) 31

/-- The running stations (R587). -/
def Mach.runningStns (m : Mach) : List Nat := (List.range 6).filter m.inJob

/-- Whether every running station is matched. -/
def Mach.allMatched (m : Mach) : Bool := m.runningStns.all m.matched

/-- LIG_STAT of a side (R613). -/
def Mach.ligStat (m : Mach) (d : SideId) : Word :=
  if m.part != .w9d then 0
  else
    let st (x : SideId) : Nat := sideStCode (m.side x).st
    let elig := (m.side d).st == .shadow && m.allMatched
    BitVec.ofNat 32 (st d * 2 ^ 28 + st d.other * 2 ^ 24 + b2n elig * 2 ^ 23 + b2n m.moving.isSome * 2 ^ 22 + m.tko % 256 * 256 + m.lanes)

/-- LIG_ARB (R612). -/
def Mach.ligArb (m : Mach) : Word :=
  if m.part != .w9d then 0
  else BitVec.ofNat 32 (m.token.toNat * 2 ^ 31 + b2n m.safe * 2 ^ 30 + b2n m.a.alive * 2 ^ 29 + b2n m.b.alive * 2 ^ 28 +
    b2n m.a.faultN * 2 ^ 27 + b2n m.b.faultN * 2 ^ 26)

/-! ### The link (R579, R628, R636) -/

/-- The bank that a side runs. -/
def Mach.runs (m : Mach) (d : SideId) : Nat := m.get d mgtStat 22 1

/-- A firmware bank of a side. -/
def Side.bank (s : Side) (b : Nat) : FwBank := if b = 0 then s.bankA else s.bankB

/-- RELEASE (0), BUILD (1) or SEC_VERSION (2) of a bank (R633): what it held as delivered, or the header last written. -/
def Mach.fwField (m : Mach) (d : SideId) (b k : Nat) : Nat :=
  let x := (m.side d).bank b
  let at_ (off len : Nat) : Nat := leNat ((List.range len).map (fun i => tabGet 0xFF x.cells (off + i)))
  if !x.touched then Config.fwDelivered d.toNat b k
  else if k = 0 then at_ 6 2
  else if k = 1 then at_ 8 4
  else at_ 12 4

/-- FW_RELEASE of a bank (R199): bank A as delivered, which every side starts from (R83), holds release 2.6, the release of this
specification. -/
def Mach.fwRelease (m : Mach) (d : SideId) (b : Nat) : Nat :=
  if b = 0 ∧ !((m.side d).bank b).touched then 0x0206 else m.fwField d b 0

/-- Lanes up, as LIG_LINK shows them (R612). -/
def Mach.setLanes (m : Mach) (n : Nat) : Mach :=
  { m with lanes := n }.onSides Mach.inService (fun d t => t.put d 0xFC0010 0 16 (2 ^ n - 1))

/-- Both sides have reached step 9 and Ligature has trained: PARTNER_READY is set, and the side without the token becomes level at
once when the module has just started, or joins (R84, R585, R586). The encoder counters are copied before (R221). -/
def Mach.pairUp (m : Mach) : Mach :=
  let o := m.token.other
  if m.part != .w9d || !m.ligUp || !m.ligKey || m.a.step < 9 || m.b.step < 9 || m.mgt m.token 29 then m
  else
    let bare := !(m.side o).own && m.regions.isEmpty && m.jobs.isEmpty && m.planes.isEmpty && m.tpls.isEmpty && m.glyphs.isEmpty &&
      m.eng == .configured
    let level (x : Side) : Side := { x with encZero := [] }
    let m1 := ((((m.modSide .a level).modSide .b level).setMgt .a 29 true).setMgt .b 29 true).setSt m.token .active
    if bare then m1.setSt o .shadow
    else
      let units := (m1.regions.foldl (fun n r => n + ceilDiv r.2.bytes 65536) 0)
      let m2 := (m1.setSt o .joining).wrB 0xFC001C (BitVec.ofNat 32 (2 ^ 28 + units))
      m2.runningStns.foldl (fun t s => t.setB (ligStn s) 31 false) m2

/-- LIGATURE_TRAINED: R84, R585, R586, R628, R636. -/
def execLigatureTrained (lanes : Nat) (keyOk : Bool) (s : State) : Host.Outcome State Fault Refusal :=
  onM (fun m =>
    let bothLog (t : Mach) (code : Nat) : Mach := (t.logFor .a 0x0F noInst code 3 []).logFor .b 0x0F noInst code 3 []
    if m.part != .w9d || m.a.step = 0 || m.b.step = 0 || lanes < 8 || 16 < lanes then m
    else if m.fwRelease .a (m.runs .a) != m.fwRelease .b (m.runs .b) || m.fwField .a (m.runs .a) 1 != m.fwField .b (m.runs .b) 1 then
      bothLog m 0x0705
    else
      let m1 := { m with ligUp := true, ligKey := keyOk }.setLanes lanes
      if keyOk then m1.pairUp else bothLog m1 0x070D) s

/-- Ligature goes down: PARTNER_READY goes, and the standby side leaves service (R599). -/
def Mach.ligDown (m : Mach) : Mach :=
  if !m.ligUp then m
  else
    let m1 := ({ m with ligUp := false, ligKey := false }.setLanes 0).ligFault 2
    let m2 := (m1.raise 116).logLig noInst 0x0607 2 [0]
    let m3 := (m2.setMgt .a 29 false).setMgt .b 29 false
    m3.selfFault m3.token.other 10

/-- LIGATURE_DOWN: R599. -/
def execLigatureDown (s : State) : Host.Outcome State Fault Refusal := onM Mach.ligDown s

/-- LIG_FRAME: R579. A frame that arrives well changes nothing by itself; a bad one is sent again, lanes that failed are dropped,
and with fewer than 8 the link is down. -/
def execLigFrame (crcOk : Bool) (lanes : Nat) (s : State) : Host.Outcome State Fault Refusal :=
  onM (fun m =>
    if !m.ligUp then m
    else if lanes < 8 then m.ligDown
    else
      let m1 := if lanes < m.lanes then ((m.setLanes lanes).raise 116).logLig noInst 0x0607 2 [lanes] else m
      if crcOk then m1
      else
        let m2 := m1.onSides Mach.inService (fun d t => t.put d 0xFC0010 16 16 (satAt 0xFFFF (t.get d 0xFC0010 16 16 + 1)))
        let r := m2.countFault 0x17 0 0
        if r.2 then r.1.ligDown else r.1) s

/-! ### Signatures (R582, R583, R600, R601) -/

/-- The pages that carry a grid line on a station, with the page line. -/
def Mach.linePages (m : Mach) (s : Nat) (line : Int) : List (Nat × Nat) := (m.gridPages s line line).map (fun p => (p.1, p.2.1))

/-- A line of a station mismatches (R600). Within 1 ms after a side fault only the panels that touch the line are suspect, and nothing is
counted (R601). -/
def Mach.mismatch (m : Mach) (s : Nat) (line : Int) : Mach :=
  let r := ligStn s
  let first := m.bitA r 31
  let m1 := (m.addSatB 0xFC0014 1).ligFault 1
  let owned := (tabVals m.redund.faultAt).any (fun t => decide (m.now ≤ t + 1000))
  let m2 := (m1.linePages s line).foldl (fun t p => t.modPage p.1 (fun k =>
    if owned then k.flagBow (m1.bowShifts s) p.2 p.2 fSuspect else k.flagAll fSuspect)) m1
  if !first then m2
  else
    let m3 := ((m2.setB r 31 false).setB r 30 true).wrB (r + 8) (BitVec.ofInt 32 line)
    let m4 := ((m3.addSatF r 0 16 1).raise 113).logLig s 0x0602 2 [line] 0x16
    if owned then m4
    else
      let c := m4.countFault 0x16 0 s
      let m5 := { c.1 with redund := { c.1.redund with misAt := tabPut c.1.redund.misAt s c.1.now } }
      if c.2 then m5.leaveService m5.token.other else m5

/-- Whether the two sides compare lines of a station. -/
def Mach.compares (m : Mach) (s : Nat) : Bool := m.shadowed && m.ligUp && m.inJob s && (m.matched s || m.bitA (ligStn s) 30)

/-- The emitter that writes a grid line in the pass of beam `b`, as a signature numbers it (R580): the beam, the spare that stands in, or
0xFF for none. -/
def Mach.passEmitter (m : Mach) (s b : Nat) (n : Int) : Nat :=
  if m.beamHas s b n then b
  else match (m.stnOf s).subFor b n with
    | some u => 32 + u.spare
    | none => 0xFF

/-- Levels two per byte, the earlier in the low nibble. -/
def packPairs : List Nat → List Byte
  | [] => []
  | [a] => [BitVec.ofNat 8 (a % 16)]
  | a :: b :: t => BitVec.ofNat 8 (a % 16 + 16 * (b % 16)) :: packPairs t

/-- The levels of a line two per byte, dot 2i in the low nibble, with zeros up to 12 284 bytes (R580). -/
def packLevels (ls : List Nat) : List Byte := padTo 12284 (packPairs ls)

/-- The bytes that the signature of a grid line covers (R580): n, JOB_ID, PAGE_NO, and per pass from the last to the first the emitter and
the formatter's levels. Blanked and lost lines, and a pass that no emitter writes, enter with level 0. -/
def Mach.signedLine (m : Mach) (s key y : Nat) (n : Int) : List Byte :=
  let page := (tabFind m.pages key).map Page.pageNo
  let bad := ((m.progOf key s).map (fun r => r.2.bad.contains y)).getD true
  let a := m.advance s
  let pass (p : Nat) : List Byte :=
    let b := p * a + (n % (a : Int)).toNat
    let e := m.passEmitter s b n
    leBytes 1 e ++ packLevels (if e = 0xFF then [] else m.emitterLevels s b key y n)
  leBytes 8 (unsignedOf 64 n) ++ leBytes 4 m.armed ++ leBytes 4 (page.getD 0) ++
    (if m.isLed s then leBytes 1 0xFE ++ packLevels (if bad then [] else m.gridLevels s key y)
     else (List.range (setPasses (m.stnSet s))).reverse.flatMap pass)

/-- The signature that the side computes for a grid line (R580); a line that belongs to no page has none. -/
def Mach.signature (m : Mach) (s : Nat) (n : Int) : Option Word :=
  (m.linePages s n).head?.map (fun p => crc32c (m.signedLine s p.1 p.2 n))

/-- SIGNATURE_RECORD: R580 to R582, R600. A record whose line number is another line's says nothing of this one. The partner's record is compared with the signature of the line that the state holds. -/
def execSignatureRecord (station : Nat) (line : Int) (low partner : Word) (ownErr partnerErr : Bool) (s : State) :
    Host.Outcome State Fault Refusal :=
  onM (fun m =>
    match m.signature station line with
    | none => m
    | some own =>
      if !m.compares station || low != BitVec.ofInt 32 line then m
      else if own = partner ∧ !ownErr ∧ !partnerErr then m.wrB (ligStn station + 4) (BitVec.ofInt 32 line)
      else m.mismatch station line) s

/-- SIGNATURE_TIMEOUT: R582. -/
def execSignatureTimeout (station : Nat) (line : Int) (s : State) : Host.Outcome State Fault Refusal :=
  onM (fun m => if m.compares station then m.mismatch station line else m) s

/-- STATION_CHECKPOINT: R583. A difference counts as a mismatch at the first line of the station's next page. -/
def execStationCheckpoint (station : Nat) (same : Bool) (s : State) : Host.Outcome State Fault Refusal :=
  onM (fun m =>
    if !m.shadowed || !m.inJob station then m
    else
      let d := m.decOf station
      let m1 := { m with redund := { m.redund with ckptPage := d.savedPage } }
      if same || !m1.compares station then m1
      else
        let next := d.queue.head?.bind (fun p => (tabFind m1.pages p.key).bind (fun k => (tabFind k.prog station).bind StnPage.grid))
        let m2 := m1.mismatch station (next.getD ((m1.stnOf station).lastLine.getD (-1) + 1))
        match d.queue.head? with
        | some p => m2.modPage p.key (fun k => k.flagAll fSuspect)
        | none => m2) s

/-! ### The token (R588 to R598) -/

/-- A running station that is not matched when the token moves (R596). -/
def Mach.unmatchedBlank (m : Mach) (s : Nat) : Mach :=
  let m1 := ((m.imagingFault s 0x0F 0x0609 2 []).raise 119).ligFault 5
  let m2 := m1.pages.foldl (fun t e => t.modPage e.1 (fun k => { k with prog := match tabFind k.prog s with
    | some q => if q.ended then k.prog else tabPut k.prog s q.blankNow
    | none => k.prog })) m1
  m2.modDec s (fun d => { d with histValid := false })

/-- The token moves at M (R591, R592): after a fault the old side has still to leave; after a HANDOVER both stay in service. -/
def Mach.moveToken (m : Mach) (hand : Bool) (delay : Nat) : Mach :=
  let old := m.token
  let new := old.other
  let lost := m.runningStns.filter (fun s => !m.matched s)
  let m1 := { m with token := new, moving := none, tko := (m.tko + 1) % 256 }
  let m2 := if hand then (m1.setSt new .active).setSt old .shadow
    else
      let t := m1.setSt new .alone
      let t1 := (t.wrB 0xFC0004 (BitVec.ofNat 32 (0x0B * 2 ^ 24 + sideCode old * 2 ^ 16 + delay % 65536))).wrB64 0xFC0008 m.redund.detectAt
      ({ t1 with sec := { t1.sec with held := false, challenge := none }, redund := { t1.redund with lostBy := some old } }).ligFault 0
  let m3 := (m2.raise 112).logLig noInst 0x0601 3 [sideCode old, delay]
  let m4 := (tabKeys m3.tokens).foldl Mach.repeatToken (if hand then m3 else (List.range 6).foldl (fun t s => t.setB (ligStn s) 30 false) m3)
  (lost.foldl (fun t s => t.unmatchedBlank s) m4).rechain.publish

/-- A side restarts on its own (R86, R588, R595, R602) with a RESET_CAUSE: a standby side leaves service, a token holder is taken over
when its partner is level, and a side alone acts as one that fails. While stations run, the arbiter finds the silent side and the
token moves at M. -/
def Mach.restartSide (m : Mach) (d : SideId) (cause : Nat) : Mach :=
  if !m.fitted d || (m.side d).st == .down then m
  else
    let m1 := m.put d mgtStat 16 4 cause
    if !m.inService d then m1.startSide d cause
    else if m.token != d then m1.leaveService d
    else if !m.shadowed then m1.failAlone
    else if engLive m.eng then m1.modSide d (fun s => { s with alive := false })
    else
      let m2 := { m1 with redund := { m1.redund with detectAt := m1.now } }
      let m3 := (m2.moveToken false 2).leaveService d
      { m3 with redund := { m3.redund with lostBy := none } }

/-- The number of a row of R589. -/
def faultRow : SideFaultRow → Nat
  | .lockstep _ => 1
  | .watchdog => 2
  | .internalMemory => 3
  | .datapathParity _ => 4
  | .imageMemory => 5
  | .dieShutdown => 6
  | .supply => 7
  | .clock => 7
  | .securityError => 8
  | .aliveStopped => 9
  | .standbyDecision => 10

/-- SIDE_FAULT: R588, R589, R597, R602. Of a side alone, the rules of R272 and R572 decide their own rows; a stopped ALIVE is for the
arbiter to see, and the row of standby sides is theirs alone. -/
def execSideFault (d : SideId) (row : SideFaultRow) (s : State) : Host.Outcome State Fault Refusal :=
  onM (fun m =>
    let alone := (m.side d).st == .alone
    match row with
    | .imageMemory => if alone then m else m.selfFault d 5
    | .dieShutdown => if alone then m else m.selfFault d 6
    | .aliveStopped => if m.inService d then m.modSide d (fun x => { x with alive := false }) else m
    | .standbyDecision => if m.token = d then m else m.selfFault d 10
    | .securityError => 
      (if (m.side d).core.error then m else m.coreError d (Config.freeNat m.fresh 0 % 256)).selfFault d 8
    | r => m.selfFault d (faultRow r)) s

/-- APP_WATCHDOG_EXPIRY: R589. -/
def execAppWatchdogExpiry (d : SideId) (s : State) : Host.Outcome State Fault Refusal := onM (fun m => m.selfFault d 2) s

/-- DECISION_TIMEOUT: R584, R589. -/
def execDecisionTimeout (s : State) : Host.Outcome State Fault Refusal :=
  onM (fun m => m.selfFault m.token.other 10) s

/-- DRONE_WATCHDOG: R86. -/
def execDroneWatchdog (d : SideId) (s : State) : Host.Outcome State Fault Refusal :=
  onToken (fun m => if m.power.phase == .running then m.restartSide d 6 else m) s

/-- ARBITER_DETECT: R588 to R590, R602, R603. -/
def execArbiterDetect (d : SideId) (s : State) : Host.Outcome State Fault Refusal :=
  onM (fun m =>
    if m.token != d || !m.inService d || m.moving = some (d, false) then m
    else
      let m1 := if (m.side d).faultN then m
        else ((m.countFault 0x18 (sideCode d) 0).1.logFor d 0x0F noInst 0x060B 3 [9] 0x18).modSide d (fun x => { x with alive := false })
      let o := m1.side d.other
      let m2 := { m1 with redund := { m1.redund with detectAt := m1.now } }
      if o.st == .shadow && !o.faultN then { m2 with moving := some (d, false) } else m2.failAlone) s

/-- Whether a running station is dark (R22, R591): a laser station whose sweep has had its EOS, where EOS_EN is set, and an LED station with
no line in progress. Without EOS_EN the end of a sweep's last pulse is no row of the table, and the sender of TOKEN_MOVE judges it. -/
def Mach.isDark (m : Mach) (s : Nat) : Bool :=
  if m.isLaser s then !(m.bitA (pxcBase s) 11 && (m.stnOf s).sweepOpen) else (m.stnOf s).ledLine.isNone

/-- TOKEN_MOVE: R22, R591, R592, R596, R598. The token moves only while every running station is dark; one that is not is forced dark
first. A HANDOVER waits for running stations that are all matched. -/
def execTokenMove (mMinusD : Nat) (s : State) : Host.Outcome State Fault Refusal :=
  onToken (fun m =>
    match m.moving with
    | none => m
    | some (d, hand) =>
      if m.token != d || !m.shadowed || (hand && !m.allMatched) || !m.runningStns.all m.isDark then m
      else (m.moveToken hand mMinusD).answerAwaits (fun k => k == .handover) stOk 0 (fun _ => [])) s

/-- FORCE_DARK: R591. The index or the line in progress of each station is lost. -/
def execForceDark (stations : List Nat) (s : State) : Host.Outcome State Fault Refusal :=
  onM (fun m =>
    match m.moving with
    | some (_, false) =>
      (stations.filter m.inJob).foldl (fun t s =>
        let t1 := (((t.imagingFault s 0x0F 0x0605 2 []).raise 119).ligFault 4)
        if t1.isLaser s then t1.loseOpen s 9
        else match (t1.stnOf s).ledLine with
          | some n => (t1.lossLines s n n).modStn s (fun u => { u with ledLine := none })
          | none => t1) m
    | _ => m) s

/-- EXP_DEADLINE: R593. The panels that touch a suspect line carry SUSPECT. -/
def execExpDeadline (suspect : List (Nat × Int)) (s : State) : Host.Outcome State Fault Refusal :=
  onM (fun m =>
    if m.redund.lostBy.isNone then m
    else suspect.foldl (fun t e => (t.linePages e.1 e.2).foldl (fun u p =>
      u.modPage p.1 (fun k => k.flagBow (u.bowShifts e.1) p.2 p.2 fSuspect)) t) m) s

/-- SIDE_LEAVE: R595. -/
def execSideLeave (s : State) : Host.Outcome State Fault Refusal :=
  onM (fun m =>
    match m.redund.lostBy with
    | none => m
    | some d => { m with redund := { m.redund with lostBy := none } }.leaveService d) s

/-- HANDOVER: R215, R598. -/
def planHandover (m : Mach) : Plan :=
  { absent := m.part != .w9d
    state := !m.mgt m.token 29 || !m.shadowed || !m.allMatched
    later := some .handover
    act := fun t => if t.moving.isSome then t else { t with moving := some (t.token, true) } }

/-- HANDOVER: R598. -/
def execHandover (msg : Msg) (s : State) : Host.Outcome State Fault Refusal :=
  onM (fun m => m.runCmd { opcode := 0x0A02, lenMin := 0, lenMax := 0, states := inCAPD } msg planHandover) s

/-- HANDOVER_TIMEOUT: R598. -/
def execHandoverTimeout (s : State) : Host.Outcome State Fault Refusal :=
  onM (fun m =>
    match m.moving with
    | some (_, true) =>
      let m1 := ((({ m with moving := none }.ligFault 6).raise 119).logLig noInst 0x060A 1 [])
      m1.answerAwaits (fun k => k == .handover) stTimeout 0 (fun _ => [])
    | _ => m) s

/-! ### Joining (R586) -/

/-- Whether a register is copied to a joining side (R586): the engine's registers, which both sides run alike. -/
def copiedReg (off : Nat) : Bool :=
  off == 0x10100 || off == 0x20000 || off == 0x400000 || off == 0x20004 || decide (0x401000 ≤ off ∧ off < 0x408000) || decide (0x500000 ≤ off ∧ off < 0xF80000)

/-- The allocated bytes of image memory. -/
def Mach.allocated (m : Mach) (a : Nat) : Bool := m.regions.any (fun r => decide (r.2.off ≤ a ∧ a < r.2.off + r.2.bytes))

/-- Image memory of a joining side after the copy of the allocated units. -/
def Mach.copyImage (m : Mach) (src dst : Image) : Image :=
  let kept : Image := { cells := dst.cells.filter (fun c => !m.allocated c.1), errs := dst.errs.filter (fun e => !m.allocated (64 * e.1)) }
  (src.cells.filter (fun c => m.allocated c.1)).foldl (fun x c => x.put c.1 c.2) kept

/-- JOIN_UNIT_COPIED: R586. Step 2 waits for the slices of the joining side; after step 3 the side is SHADOW, and running stations match
at their next page boundary. -/
def execJoinUnitCopied (s : State) : Host.Outcome State Fault Refusal :=
  onMem (fun img m =>
    let o := m.token.other
    if (m.side o).st != .joining then (img, m)
    else
      match m.getA 0xFC001C 28 4 with
      | 1 => (img, m.putB 0xFC001C 28 4 2)
      | 2 =>
        if m.regions.all (fun r => (List.range 16).all (fun i =>
            decide (i < r.2.off / 2 ^ 30 ∨ (r.2.off + r.2.bytes - 1) / 2 ^ 30 < i) || m.mgt o i)) then
          (img.setSide o (m.copyImage (img.side m.token) (img.side o)), m.wrB 0xFC001C (BitVec.ofNat 32 (3 * 2 ^ 28)))
        else (img, m)
      | _ =>
        let regs := (m.side m.token).regs.filter (fun e => copiedReg e.1)
        let m1 := m.modSide o (fun x => { x with
          regs := regs.foldl (fun t e => sparsePut resetOf t e.1 e.2) (x.regs.filter (fun e => !copiedReg e.1))
          feeds := (m.side m.token).feeds })
        let m2 := m1.setSt o .shadow
        (img, m2.wrB 0xFC001C (BitVec.ofNat 32 (if m2.runningStns.isEmpty then 0 else 4 * 2 ^ 28)))) s

/-! ### Fault classes (R604 to R607) -/

/-- The number of instances of a class (R605), 0 for no class. -/
def faultInstances : Nat → Nat
  | 0x01 => 4
  | 0x02 => 64
  | 0x03 => 36
  | 0x04 => 6
  | 0x05 => 6
  | 0x06 => 204
  | 0x07 => 6
  | 0x08 => 14
  | 0x09 => 14
  | 0x0A => 8
  | 0x0B => 14
  | 0x0C => 1
  | 0x0D => 12
  | 0x0E => 12
  | 0x0F => 256
  | 0x10 => 26
  | 0x11 => 26
  | 0x12 => 4
  | 0x13 => 4
  | 0x14 => 4
  | 0x15 => 65536
  | 0x16 => 6
  | 0x17 => 1
  | 0x18 => 1
  | _ => 0

/-- Whether an instance of a class belongs to a unit that the part has (R2, R7, R605). -/
def instFitted (p : Part) (cls inst : Nat) : Bool :=
  if cls = 0x04 || cls = 0x05 then decide (inst < stationsOf p)
  else if cls = 0x06 then decide (inst / 34 < stationsOf p)
  else if cls = 0x07 then hasLaser p
  else if cls = 0x08 || cls = 0x09 || cls = 0x0B then decide (inst < motorsOf p)
  else if cls = 0x0D || cls = 0x0E then decide (inst < steppersOf p)
  else if cls = 0x0F then loopFitted p inst
  else if cls = 0x10 || cls = 0x11 then decide (inst < hvOf p)
  else if cls = 0x12 || cls = 0x13 || cls = 0x14 then decide (inst < fusersOf p)
  else if cls = 0x16 || cls = 0x17 then p == .w9d
  else true

/-- Whether a class word's side fits its class (R606). -/
def faultSideOk (cls side : Nat) : Bool :=
  if cls = 0x15 then decide (side ≤ 2)
  else if cls = 2 || cls = 3 || cls = 0x18 then decide (side = 1 ∨ side = 2)
  else side == 0

/-- Clear a class: every count and lasting flag, with what they held back (R595, R606, R607). -/
def Mach.clearClass (m : Mach) (cls : Nat) : Mach :=
  let m1 := { m with faults := m.faults.filter (fun e => e.1 / 262144 != cls) }
  let m2 := m1.refreshInhibit
  if cls = 0x18 then
    m2.onSides (fun t d => t.fitted d && (t.side d).st == .down && !hasBit t.shut.stopped d.toNat && t.power.phase == .running) (fun d t =>
      (t.startSide d (t.resetCause d)).modSide d (fun x => { x with own := true }))
  else m2

/-- FAULT_CLASS_SET: R215, R606. -/
def planFaultClassSet (msg : Msg) (m : Mach) : Plan :=
  let w := numAt msg.payload 0 4
  let cls := w % 256
  let win := numAt msg.payload 4 4
  let thr := numAt msg.payload 8 4
  { absent := !(List.range (min 1 (faultInstances cls))).all (instFitted m.part cls)
    param := firstBad [
      (faultInstances cls == 0 || w / 256 % 256 != 0 || w / 65536 != 0xFFFF || faultFixed cls, 0),
      (decide (win < 100 ∨ 604800000 < win), 4),
      (decide (thr < 1 ∨ 65535 < thr), 8) ]
    act := fun t => ({ t with faultCfg := tabPut t.faultCfg cls ⟨win, thr⟩ }).clearClass cls }

/-- FAULT_CLASS_SET: R606. -/
def execFaultClassSet (msg : Msg) (s : State) : Host.Outcome State Fault Refusal :=
  onM (fun m => m.runCmd { opcode := 0x0A03, lenMin := 12, lenMax := 12, states := inC } msg (planFaultClassSet msg)) s

/-- FAULT_CLASS_READ: R606. -/
def planFaultClassRead (msg : Msg) (m : Mach) : Plan :=
  let w := numAt msg.payload 0 4
  let cls := w % 256
  let side := w / 256 % 256
  let inst := w / 65536
  let f := m.faultInst cls side inst
  let c := m.faultSettings cls
  { absent := faultSideOk cls side && decide (inst < faultInstances cls) &&
      (side == 2 && m.part != .w9d || !instFitted m.part cls inst)
    param := firstBad [(faultInstances cls == 0 || !faultSideOk cls side || decide (faultInstances cls ≤ inst), 0)]
    reply := leBytes 4 f.count ++ leBytes 4 c.thresh ++ leBytes 4 c.window ++ leBytes 4 (b2n f.lasting + 2 * b2n (faultFixed cls)) }

/-- FAULT_CLASS_READ: R606. -/
def execFaultClassRead (msg : Msg) (s : State) : Host.Outcome State Fault Refusal :=
  onM (fun m => m.runCmd { opcode := 0x0A04, lenMin := 4, lenMax := 4, states := inCAPDF } msg (planFaultClassRead msg)) s

/-- FAULT_CLASS_DRAIN: R604. A lasting instance does not drain. -/
def execFaultClassDrain (cls side inst : Nat) (s : State) : Host.Outcome State Fault Refusal :=
  onM (fun m =>
    let f := m.faultInst cls side inst
    if f.lasting || f.count = 0 then m
    else { m with faults := sparsePut (fun _ => (⟨0, false⟩ : FaultInst)) m.faults (faultKey cls side inst) ⟨f.count - 1, false⟩ }) s

/-! ### LIG_READ (R615) -/

/-- LIG_READ: R615. -/
def planLigRead (msg : Msg) (m : Mach) : Plan :=
  let d := affinitySide msg
  let mask := if m.part = .w9d then (bitsOf 63 6).filter m.matched |>.foldl setBitN 0 else 0
  { reply := wordBytes (m.ligStat d) ++ wordBytes m.ligArb ++ wordBytes (m.rd d 0xFC0014) ++ wordBytes (m.rd d 0xFC0004) ++
      leBytes 8 (m.rd64 d 0xFC0008) ++ leBytes 4 m.redund.ckptPage ++ leBytes 4 mask }

/-- LIG_READ: R615. -/
def execLigRead (msg : Msg) (s : State) : Host.Outcome State Fault Refusal :=
  onM (fun m => m.runCmd { opcode := 0x0A01, lenMin := 0, lenMax := 0, states := inCAPDF, perSide := true } msg (planLigRead msg)) s

end Sys2Proof.Machine
end

