-- ==== Sys2Proof/Machine/Rings.lean ====
section
/-!
DEFINITION. Rings at the host's side (R142 to R160): doorbells, enabling and disabling, what the mailbox engine takes from a command
ring and how it decides its tag and form, forwarding (R137), and the service transports (R202).
-/

namespace Sys2Proof.Machine

/-! ### The windows of a side (R82, R129, R133) -/

/-- Whether a BAR0 block of a side responds: from the endpoint of step 4 of R81 on, the first blocks (R82), and the others from
APP_READY. -/
def Mach.bar0On (m : Mach) (d : SideId) (off : Nat) : Bool :=
  m.fitted d && (m.side d).st != .down && (m.side d).endpoint && !(m.side d).d3 && (decide (off < 0x100000) || m.mgt d 24)

/-! ### Doorbells, enabling and disabling (R153, R154, R368) -/

/-- The record rings (R142). -/
def isRecordRing (n : Nat) : Bool := decide (48 ≤ n ∧ n ≤ 55)

/-- The host moves RING_HEAD of a record ring by `k`: the records it has passed are released, and publication goes on. DESIGN CHOICE: on
a module with two sides, a record that either side's host releases by its own RING_HEAD frees its slot of the journal on both; the other
side's ring publishes it all the same, so that both rings hold the same entries (R140). -/
def Mach.releaseRecords (m : Mach) (d : SideId) (n k : Nat) : Mach :=
  let gone := ((m.side d).ringAux n).pubs.take k
  let m1 := m.modRing d n (fun a => { a with pubs := a.pubs.drop k, relNext := gone.foldl (fun r seq => max r (seq + 1)) a.relNext })
  ({ m1 with records := { m1.records with
      entries := tabMap (fun seq (e : ChainEntry) => { e with freed := e.freed || gone.contains seq }) m1.records.entries } }).publish

/-- The entries a ring would hold after a doorbell. -/
def Mach.heldAfter (m : Mach) (d : SideId) (n index : Nat) : Nat :=
  if ringToHost n then (m.ringTail d n + 65536 - index) % 65536 else (index + 65536 - m.ringHead d n) % 65536

/-- Whether a doorbell is valid (R153): the host-owned index goes forward, at most to the module's index or to a full ring. -/
def Mach.doorbellOk (m : Mach) (d : SideId) (n index : Nat) : Bool :=
  m.ringOn d n && decide (m.heldAfter d n index ≤ m.ringSize d n) &&
    (if ringToHost n then decide (m.heldAfter d n index ≤ m.ringHeld d n) else decide (m.ringHeld d n ≤ m.heldAfter d n index))

/-- A doorbell write (R151, R153). A ring that waits after a fetch error reads again (R157). -/
def Mach.doorbell (m : Mach) (d : SideId) (n index : Nat) : Mach :=
  let i := index % 65536
  if 64 ≤ n then m
  else if !m.doorbellOk d n i then m.ringError d n 29
  else if ringToHost n then
    let k := m.ringHeld d n - m.heldAfter d n i
    let m1 := m.put d (ringPage n + 0x10) 0 16 i
    if isRecordRing n then m1.releaseRecords d n k else m1
  else (m.put d (ringPage n + 0x14) 0 16 i).modRing d n (fun a => { a with stalled := false })

/-- ENABLE goes from 0 to 1 (R136, R154): a record ring publishes afresh from the last entry that its host released. -/
def Mach.enableRing (m : Mach) (d : SideId) (n : Nat) : Mach :=
  if m.ringOn d n then m
  else
    let m1 := ((m.put d (ringPage n + 0xC) 31 1 1).put d (ringPage n + 0x10) 0 16 0).put d (ringPage n + 0x14) 0 16 0
    let m2 := m1.modRing d n (fun a => { epoch := a.epoch + 1, pubNext := a.relNext, relNext := a.relNext, topNext := a.topNext })
    if isRecordRing n then m2.publish else m2

/-- ENABLE goes from 1 to 0 (R154). -/
def Mach.disableRing (m : Mach) (d : SideId) (n : Nat) : Mach :=
  if m.ringOn d n then
    (m.put d (ringPage n + 0xC) 31 1 0).modRing d n (fun a => { a with epoch := a.epoch + 1, stalled := false, pubs := [] })
  else m

/-- RING_ENABLE: R154. -/
def execRingEnable (d : SideId) (ring : Nat) (s : State) : Host.Outcome State Fault Refusal :=
  onM (fun m => if m.bar4On d && decide (ring < 64) then m.enableRing d ring else m) s

/-- RING_DISABLE: R154. -/
def execRingDisable (d : SideId) (ring : Nat) (s : State) : Host.Outcome State Fault Refusal :=
  onM (fun m => if m.bar4On d && decide (ring < 64) then m.disableRing d ring else m) s

/-- FETCH_ERROR: R157; where the access is a write, a write of the module into host memory for the ring is refused with an error (R150, WB_ERROR), for
which the table has no row of its own (DESIGN CHOICE). -/
def execFetchError (d : SideId) (access : RingAccess) (s : State) : Host.Outcome State Fault Refusal :=
  onM (fun m =>
    let ring := access.ring
    if access.write then (if m.bar4On d && decide (ring < 64) && m.ringOn d ring then m.ringError d ring 27 else m)
    else if m.bar4On d && decide (ring < 64) && !ringToHost ring && m.ringOn d ring && decide (0 < m.ringHeld d ring) then
      (m.ringError d ring 28).modRing d ring (fun a => { a with stalled := true })
    else m) s

/-! ### What the mailbox engine takes (R137, R156, R157, R177, R179, R202) -/

/-- The opcodes of protocol level 4 with the least and the greatest payload length of each (the group tables). -/
def cmdTable : List (Nat × Nat × Nat) :=
  [(0x0101, 0, 0), (0x0102, 0, 0), (0x0103, 0, 240), (0x0104, 4, 4), (0x0105, 0, 0), (0x0106, 1, 1)] ++
  [(0x0107, 8, 8), (0x0108, 0, 0), (0x0201, 8, 8), (0x0202, 132, 132), (0x0203, 0, 0), (0x0204, 0, 0)] ++
  [(0x0205, 0, 0), (0x0206, 4, 4), (0x0207, 4, 4), (0x0208, 12, 12), (0x0209, 4, 4), (0x0301, 48, 48)] ++
  [(0x0302, 4, 4), (0x0303, 4, 4), (0x0304, 4, 4), (0x0305, 64, 64), (0x0306, 8, 8), (0x0307, 4, 4)] ++
  [(0x0308, 4, 4), (0x0401, 8, 8), (0x0402, 4, 4), (0x0403, 24, 24), (0x0404, 12, 12), (0x0405, 4, 4)] ++
  [(0x0406, 0, 0), (0x0501, 16, 16), (0x0502, 4, 4), (0x0503, 20, 20), (0x0504, 16, 16), (0x0505, 4, 4)] ++
  [(0x0506, 5, 68), (0x0507, 16, 16), (0x0601, 32, 32), (0x0602, 8, 8), (0x0603, 32, 32), (0x0604, 4, 4)] ++
  [(0x0605, 8, 8), (0x0606, 16, 16), (0x0607, 4, 4), (0x0701, 64, 64), (0x0702, 12, 12), (0x0703, 4, 4)] ++
  [(0x0704, 32, 32), (0x0705, 24, 24), (0x0706, 24, 24), (0x0707, 4, 4), (0x0801, 68, 68), (0x0802, 8, 8)] ++
  [(0x0803, 16, 16), (0x0804, 8, 8), (0x0805, 12, 12), (0x0806, 8, 8), (0x0807, 4, 4), (0x0901, 8, 8)] ++
  [(0x0902, 16, 16), (0x0903, 16, 16), (0x0904, 0, 0), (0x0905, 0, 0), (0x0906, 8, 8), (0x0A01, 0, 0)] ++
  [(0x0A02, 0, 0), (0x0A03, 12, 12), (0x0A04, 4, 4), (0x0B01, 72, 72), (0x0B02, 4, 4), (0x0B03, 20, 20)] ++
  [(0x0B04, 20, 20), (0x0B05, 4, 4), (0x0B06, 4, 4), (0x0B07, 0, 0), (0x0B08, 0, 0), (0x0C01, 8, 8)] ++
  [(0x0C02, 20, 20), (0x0C03, 8, 8), (0x0C04, 0, 0), (0x0C05, 0, 0), (0x0D01, 8, 8), (0x0D02, 9, 8176)] ++
  [(0x0D03, 0, 0), (0x0D04, 4, 4), (0x0D05, 0, 0)]

/-- The command in the bytes of a message (R174). A host buffer is read when the command runs. -/
def msgOf (d : SideId) (via : Via) (bs : List Byte) : Msg :=
  { side := d, via := via, tag := numAt bs 0 4, flags := numAt bs 6 1, affinity := numAt bs 7 1
    payload := bytesAt bs 16 (numAt bs 8 2), buf := none }

/-- The first header byte that makes a message malformed (R177), where one does. -/
def badHeader (bs : List Byte) : Option Nat :=
  let len := numAt bs 8 2
  let lens := cmdTable.find? (fun c => c.1 == numAt bs 4 2)
  if 4 ≤ numAt bs 6 1 then some 6
  else if 2 < numAt bs 7 1 then some 7
  else if (match lens with
    | some c => decide (len < c.2.1 ∨ c.2.2 < len)
    | none => false) then some 8
  else [10, 11, 12, 13, 14, 15].find? (fun i => numAt bs i 1 != 0)

/-- A message is taken: its tag and form are decided (R177, R179), an opcode that is not defined is refused, and any other command is
fetched and waits to be carried out. -/
def Mach.takeMsg (m : Mach) (d : SideId) (via : Via) (bs : List Byte) : Mach :=
  let op := numAt bs 4 2
  let msg := msgOf d via bs
  match badHeader bs with
  | some off => m.respond op msg m.token 0 stMalformed off []
  | none =>
    match m.tagVerdict op msg with
    | .badTag => m.respond op msg m.token 0 stBadTag 0 []
    | .reused => m.respond op msg m.token 0 stTagReused 0 []
    | .inProgress => m.respond op msg m.token 0 stInProgress 0 []
    | .waits => m.respond op msg m.token 0 stInProgress 0 []
    | .replay bytes => m.deliver d via none (markReplay bytes)
    | .new =>
      if m.flights.any (fun f => f.tag == msg.tag) then m.respond op msg m.token 0 stInProgress 0 []
      else if !cmdTable.any (fun c => c.1 == op) then m.respond op msg m.token 0 stBadOpcode 0 []
      else
        let ep := match via with
          | .ring n => ((m.side d).ringAux (respRing n)).epoch
          | .i2c => 0
          | .udp => 0
        let new : Flight :=
          { tag := msg.tag, side := d, via := via, opcode := op, epoch := ep, digest := msgDigest op msg, begun := false
            ordered := !m.mgt d 29 || d == m.token }
        { m with flights := new :: m.flights }

/-- The commands of a ring that are fetched and not answered, and whose response the ring can still take (R154, R157). -/
def Mach.ringWaits (m : Mach) (d : SideId) (n : Nat) : Nat :=
  (m.flights.filter (fun f => f.side == d && f.via == .ring n && f.epoch == ((m.side d).ringAux (respRing n)).epoch)).length

/-- Whether a command ring can be served (R157). -/
def Mach.fetchable (m : Mach) (d : SideId) (n : Nat) : Bool :=
  let k := m.ringWaits d n
  m.bar4On d && (decide (n ≤ 7) || n == 60) && m.ringOn d n && !((m.side d).ringAux n).stalled && m.ringOn d (respRing n) &&
    decide (4 * (k + 1) ≤ m.ringFree d (respRing n)) && decide (k < 32)

/-- Whether a command ring has its turn (R157): no ring between the one served last and it can be served and holds entries. Ring 60 is
Drone's, which serves no other. -/
def Mach.ringTurn (m : Mach) (d : SideId) (n : Nat) : Bool :=
  n == 60 || (((List.range 8).map (fun i => ((m.side d).lastRing + 1 + i) % 8)).takeWhile (fun c => c != n)).all (fun c =>
    !m.fetchable d c || m.ringHeld d c == 0)

/-- Whether the mailbox engine may take a message from a command ring now (R157). -/
def Mach.mayFetch (m : Mach) (d : SideId) (n : Nat) : Bool := m.fetchable d n && m.ringTurn d n

/-- The mailbox engine has served a command ring. -/
def Mach.served (m : Mach) (d : SideId) (n : Nat) : Mach := if n < 8 then m.modSide d (fun s => { s with lastRing := n }) else m

/-- The first byte of a message that is too long which is bad (R177, R186). -/
def badLong (bs : List Byte) : Nat := if 4 ≤ numAt bs 6 1 then 6 else if 2 < numAt bs 7 1 then 7 else 8

/-- MESSAGE_FETCH: R156, R157, R177, R179. A ring whose message is not whole yet passes its turn on. -/
def execMessageFetch (d : SideId) (ring : Nat) (bytes : List Byte) (s : State) : Host.Outcome State Fault Refusal :=
  onM (fun m0 =>
    if !m0.mayFetch d ring || m0.ringHeld d ring = 0 then m0
    else
      let m := m0.served d ring
      let len := numAt bytes 8 2
      let h := m.ringHead d ring
      if 8176 < len || m.ringSize d ring * 64 < len + 16 then
        let m1 := (m.ringMove d ring (h + 1)).ringError d ring 26
        m1.respond (numAt bytes 4 2) { msgOf d (.ring ring) bytes with payload := [] } m1.token 0 stMalformed (badLong bytes) []
      else
        let n := ceilDiv (16 + len) 64
        if m.ringHeld d ring < n then m else (m.ringMove d ring (h + n)).takeMsg d (.ring ring) bytes) s

/-- FORWARDED_MESSAGE: R137. The active side gives the command the next place in the order of all that have been fetched. -/
def execForwardedMessage (src : SideId) (ring : Nat) (bytes : List Byte) (s : State) : Host.Outcome State Fault Refusal :=
  onM (fun m =>
    if !m.mgt src 29 || src == m.token then m
    else
      let is (f : Flight) : Bool := f.tag == numAt bytes 0 4 && f.side == src && f.via == .ring ring && !f.begun
      { m with flights := (m.flights.filter is).map (fun f => { f with ordered := true }) ++ m.flights.filter (fun f => !is f) }) s

end Sys2Proof.Machine
end

