-- ==== Sys2Proof/Machine/Sleep.lean ====
section
/-!
DEFINITION. Sleep states (R562 to R567): entry, the wake latch, wake sources and exit; doorbells and service transports, which wake the
module (R134, R202); and the end of a change of performance level (R560).
-/

namespace Sys2Proof.Machine

/-! ### States (R562, R576) -/

/-- PST_STAT.STATE. -/
def Mach.sleepState (m : Mach) : Nat := m.getA 0x20004 19 3

/-- PST_STAT.ENTERING. -/
def Mach.entering (m : Mach) : Bool := m.bitA 0x20004 22

/-- The code of a sleep state. -/
def sleepCode : SleepState → Nat
  | .idle => 1
  | .doze => 2
  | .hibernate => 3

/-- Work that counts as activity while it lasts (R563). -/
def Mach.busy (m : Mach) : Bool :=
  engLive m.eng || !m.encodes.isEmpty || !(calRunning m.awaits).isEmpty ||
    [SideId.a, .b].any (fun d => (m.side d).dma.any (fun e => e.2.state != .idle))

/-- The conditions of DOZE and HIBERNATE on the drives (R563). -/
def Mach.drivesRest (m : Mach) : Bool :=
  (List.range (motorsOf m.part)).all (fun n => m.motorState n == 0) && (List.range (hvOf m.part)).all (fun h => m.hvState h == 0) &&
    (List.range (steppersOf m.part)).all (fun n => !(m.stepState n == 2 || m.stepState n == 3 || m.stepState n == 4)) &&
    !(List.range 16).any m.cmpArmed

/-! ### Entry (R563, R565, R567) -/

/-- STANDBY of a fuser channel (R527). -/
def Mach.fsrStandby (m : Mach) (c : Nat) : Nat := numAt (m.fsrCfg c) 8 2

/-- The set-point in force of a fuser channel. -/
def Mach.fsrForce (m : Mach) (c v : Nat) : Mach := m.putB (fsrBase c + 8) 16 16 v

/-- A fuser channel that is ON moves to STANDBY, or goes off where it has none (R531, R565). -/
def Mach.fsrDoze (m : Mach) (c : Nat) : Mach :=
  if m.fsrState c = 1 then
    let m1 := { m with sleep := { m.sleep with fusers := setBitN m.sleep.fusers c } }
    if m.fsrStandby c = 0 then m1.fsrRest c 0 else (m1.putB (fsrBase c) 29 3 2).fsrForce c (m.fsrStandby c)
  else m

/-- Entry to DOZE: steppers off, fusers to STANDBY (R565). -/
def Mach.enterDoze (m : Mach) : Mach :=
  (List.range (fusersOf m.part)).foldl Mach.fsrDoze { m.steppersOff with sleep := { m.sleep with fusers := 0 } }

/-- Entry to a sleep state begins, through the shallower ones with no dwell; for HIBERNATE the rails and the fuser go off (R531, R562). -/
def Mach.enterSleep (m : Mach) (k : Nat) : Mach :=
  let m1 := (if 2 ≤ k ∧ m.sleepState < 2 then m.enterDoze else m)
  let m2 := ((m1.putB 0x20004 19 3 k).setB 0x20004 22 true).stateChange [m.sleepState, k]
  if k = 3 then m2.fusersOff.localDown else m2

/-- POWER_TIMER_EXPIRY: R563. The row is the moment at which the timer has expired and the conditions hold. -/
def execPowerTimerExpiry (timer : SleepState) (s : State) : Host.Outcome State Fault Refusal :=
  onM (fun m =>
    let k := sleepCode timer
    if m.power.phase != .running || !m.inService m.token || m.rdA (0x2000C + 4 * k) = 0 || m.busy || m.entering || m.sleep.exiting ||
        k ≤ m.sleepState || (2 ≤ k && !m.drivesRest) then m
    else m.enterSleep k) s

/-! ### Wake (R566, R567) -/

/-- The bit of a wake source in PST_WAKE_EN and PST_WAKE_SRC. -/
def wakeBit : WakeSrc → Nat
  | .i2c => 0
  | .encoder _ => 1
  | .button => 2
  | .doorbell _ _ _ => 3
  | .ethernet => 4

/-- Whether a source wakes from the present state (R566). -/
def Mach.wakes (m : Mach) (src : WakeSrc) : Bool :=
  m.power.phase == .running && m.bitA 0x20020 (wakeBit src) && (match src with
    | .encoder ch => decide (ch < 4) && m.getA (encBase ch) 0 2 != 0
    | .doorbell d n _ => m.fitted d && decide (n < 64) && decide (m.sleepState < 3)
    | .i2c => true
    | .button => true
    | .ethernet => true)

/-- A latched doorbell gives way to a later one of the same ring (R567). -/
def latchAdd (l : List WakeSrc) (src : WakeSrc) : List WakeSrc :=
  match src with
  | .doorbell d n _ => l.filter (fun x => match x with
      | .doorbell d' n' _ => !(d' == d && n' == n)
      | _ => true) ++ [src]
  | _ => l ++ [src]

/-- Hold a wake event. -/
def Mach.latchWake (m : Mach) (src : WakeSrc) : Mach := { m with sleep := { m.sleep with latch := latchAdd m.sleep.latch src } }

/-- PST_WAKE_SRC of the latest wake, on every fitted side. -/
def Mach.setWakeSrc (m : Mach) (srcs : List WakeSrc) (inEntry : Bool) : Mach :=
  let w := srcs.foldl (fun n x => setBitN n (wakeBit x)) (256 * b2n inEntry)
  m.onSides Mach.fitted (fun d t => t.wr d 0x20024 (BitVec.ofNat 32 w))

/-- Every wake raises event 7, every exit the state-change event (R567, R578). -/
def Mach.wakeEvents (m : Mach) : Mach :=
  ((m.stateChange [m.sleepState, 0]).raise 7).logM 0x00 noInst 0x0401 0 [(m.rdA 0x20024).toNat]

/-- Leaving HIBERNATE: the start-up of R81 from step 2, without the verification of step 5; RESET_CAUSE keeps its value (R562). The
configuration space and the MSI-X table are restored from Drone's always-on copy (R134). -/
def Mach.leaveHibernate (m : Mach) (srcs : List WakeSrc) (inEntry : Bool) : Mach :=
  let start (t : Mach) (d : SideId) : Mach :=
    if t.fitted d then
      ((t.startSide d (m.resetCause d)).put d mgtStat 22 2 (m.get d mgtStat 22 2)).modSide d
        (fun x => { x with msix := { (m.side d).msix with pba := 0 }, aspm := (m.side d).aspm })
    else t
  let m1 := { m with token := .a, sleep := Sleep.init }
  (((start (start m1 .a) .b).setWakeSrc srcs inEntry)).wakeEvents

/-- An exit begins (R566). PST_WAKE_SRC shows the latched sources that wake. -/
def Mach.beginWake (m : Mach) (srcs : List WakeSrc) (inEntry : Bool) : Mach :=
  if m.sleepState = 3 then m.leaveHibernate (srcs.filter m.wakes) inEntry
  else { m.setWakeSrc (srcs.filter m.wakes) inEntry with sleep := { m.sleep with latch := srcs, exiting := true } }

/-- A wake source acts: held during an entry, served once awake during an exit, and otherwise the exit begins. -/
def Mach.wakeBy (m : Mach) (src : WakeSrc) : Mach :=
  if m.sleepState = 0 || !m.wakes src then m
  else if m.entering || m.sleep.exiting then m.latchWake src
  else m.beginWake (latchAdd m.sleep.latch src) false

/-- WAKE: R565, R566. -/
def execWake (src : WakeSrc) (s : State) : Host.Outcome State Fault Refusal := onToken (fun m => m.wakeBy src) s

/-- HIBERNATE is reached (R562): what it loses is lost, and only the always-on domain runs. The endpoints are unpowered (R134). -/
def Mach.hibernate (m : Mach) : Mach :=
  let off (x : Side) : Side := { x with st := .down, endpoint := false, linkUp := false }
  (({ m.afresh with sleep := m.sleep }).modSide .a off).modSide .b off

/-- POWER_STATE_REACHED: R562, R567. What is held wakes only where it is a wake source of the state (R566). -/
def execPowerStateReached (s : State) : Host.Outcome State Fault Refusal :=
  onToken (fun m =>
    if !m.entering then m
    else
      let m1 := m.setB 0x20004 22 false
      let m2 := if m.sleepState = 3 then m1.hibernate
        else if m.sleepState = 2 then m1.onSides Mach.inService (fun d t => t.modSide d (fun x => { x with l1 := true }))
        else m1
      if m.sleep.latch.any m.wakes then m2.beginWake m.sleep.latch true else m2) s

/-- A fuser channel that was ON returns to ON (R531, R565). -/
def Mach.fsrResume (m : Mach) (c : Nat) : Mach :=
  if !hasBit m.sleep.fusers c then m
  else if m.fsrState c = 2 then (m.putB (fsrBase c) 29 3 1).fsrForce c (numAt (m.fsrCfg c) 4 2)
  else if m.fsrState c = 0 && m.fsrStandby c = 0 then m.fsrStart c
  else if m.fsrState c = 5 then m.fsrForce c (numAt (m.fsrCfg c) 4 2)
  else m

/-- What leaving DOZE restores (R565). -/
def Mach.leaveDoze (m : Mach) : Mach :=
  let m1 := m.onSides Mach.inService (fun d t => t.modSide d (fun x => { x with l1 := false }))
  let m2 := (List.range (fusersOf m.part)).foldl Mach.fsrResume m1
  (List.range 4).foldl (fun t n => (t.lockLost n).setB (ltkStat n) 23 false) m2

/-- SLEEP_EXIT_DONE: R562, R565, R567. Held doorbells act. -/
def execSleepExitDone (s : State) : Host.Outcome State Fault Refusal :=
  onM (fun m =>
    if !m.sleep.exiting || m.sleepState = 0 then m
    else
      let m1 := (if m.sleepState = 2 then m.leaveDoze else m).putB 0x20004 19 3 0
      let m2 := { m1 with sleep := Sleep.init }.wakeEvents
      m.sleep.latch.foldl (fun t x => match x with
        | .doorbell d n i => if t.bar4On d then t.doorbell d n i else t
        | _ => t) m2) s

/-! ### Doorbells and service transports (R134, R153, R202) -/

/-- A host write to a doorbell (R134, R153). While the module sleeps the write is held, and acts once the side is awake. -/
def Mach.hostDoorbell (m : Mach) (d : SideId) (ring index : Nat) : Mach :=
  if !m.bar4On d || 64 ≤ ring then m
  else if m.sleepState = 0 then m.doorbell d ring index
  else if m.wakes (.doorbell d ring index) then m.wakeBy (.doorbell d ring index)
  else m.latchWake (.doorbell d ring index)

/-- RING_DB: R134, R153. -/
def execRingDb (d : SideId) (ring index : Nat) (s : State) : Host.Outcome State Fault Refusal :=
  onM (fun m => m.hostDoorbell d ring index) s

/-- Whether Drone serves the transports of R202 on a side. -/
def Mach.droneServes (m : Mach) (d : SideId) : Bool :=
  m.fitted d && (m.power.phase == .running || m.power.phase == .inputLoss || m.power.phase == .thermalHold)

/-- The side that answers at an address of the service bus (R71): 0x50 and 0x51 with SVC_ADDR_SEL read open, 0x58 and 0x59 with it
tied. -/
def Mach.i2cSide (m : Mach) (addr : Nat) : Option SideId :=
  let base := if m.power.latched.svcAddrOpen then 0x50 else 0x58
  if addr = base then some .a else if addr = base + 1 ∧ m.fitted .b then some .b else none

/-- SVC_I2C_TRANSACTION: R71, R202, R566. A transfer cut short brings no command, and an address that no fitted side has wakes
nothing. -/
def execSvcI2cTransaction (addr : Nat) (bytes : List Byte) (s : State) : Host.Outcome State Fault Refusal :=
  onToken (fun m =>
    match m.i2cSide addr with
    | none => m
    | some d =>
      let m1 := m.wakeBy .i2c
      if m.droneServes d && decide (16 ≤ bytes.length ∧ 16 + numAt bytes 8 2 ≤ bytes.length ∧ numAt bytes 8 2 ≤ 240) then
        m1.takeMsg d .i2c bytes
      else m1) s

/-- The MAC address of a fitted side's Drone, as the management service reads it (R51). -/
def Mach.macOf (m : Mach) (d : SideId) : Option Nat := if m.fitted d then some (Config.droneMac d.toNat % 2 ^ 48) else none

/-- MGMT_DATAGRAM: R202, R566. In DOZE and HIBERNATE it is dropped. -/
def execMgmtDatagram (d : SideId) (bytes : List Byte) (s : State) : Host.Outcome State Fault Refusal :=
  onM (fun m =>
    if m.droneServes d && decide (m.sleepState < 2) &&
        decide (16 ≤ bytes.length ∧ 16 + numAt bytes 8 2 ≤ bytes.length ∧ numAt bytes 8 2 ≤ 1024) then m.takeMsg d .udp bytes
    else m) s

/-- The payload of a management wake frame (R566). -/
def wakeFrame : List Byte := [0x57, 0x41, 0x4B, 0x45] ++ leBytes 4 Config.moduleSerial

/-- MGMT_WAKE_FRAME: R566. -/
def execMgmtWakeFrame (d : SideId) (payload : List Byte) (s : State) : Host.Outcome State Fault Refusal :=
  onToken (fun m => if m.fitted d && payload == wakeFrame then m.wakeBy .ethernet else m) s

/-! ### Performance levels (R560) -/

/-- PERF_TRANSITION_DONE: R560. The voltage settles; the frequency follows it, and a held request goes on. -/
def execPerfTransitionDone (s : State) : Host.Outcome State Fault Refusal :=
  onM (fun m =>
    let f := m.getA 0x20004 30 2
    let v := m.getA 0x20004 28 2
    let target := m.getA 0x20004 26 2
    if v < f then ((m.putB 0x20004 28 2 f).setB 0x20004 23 false)
    else if target < f then (m.putB 0x20004 28 2 target).putB 0x20004 30 2 target
    else m) s

end Sys2Proof.Machine
end

