-- ==== Sys2Proof/Machine/Thermal.lean ====
section
/-!
DEFINITION. Thermal sensing, levels and actions (R568 to R574): housekeeping samples, the throttle floor, thermal shutdown and its
records.
-/

namespace Sys2Proof.Machine

/-! ### Sensors (R568, R569) -/

/-- The class of a housekeeping channel: 0 DIE, 1 HEAD, 2 BASE, 3 MOTOR (R568, R577). -/
def thermClass (k : Nat) : Nat := if k < 32 then 0 else if k < 38 then 1 else if k = 38 then 2 else 3

/-- THM_SENSE of a channel. -/
def thmSense (k : Nat) : Nat := 0x30100 + 4 * k

/-- THM_CLASS_CFG of a class. -/
def Mach.thermCfg (m : Mach) (d : SideId) (c : Nat) : Word := m.rd d (0x30000 + 4 * c)

/-- A level of a class in 1/8 °C: 0 warning, 1 throttle, 2 shut-down. -/
def Mach.thermLevel (m : Mach) (d : SideId) (c i : Nat) : Int := (8 * fieldOf (m.thermCfg d c) (24 - 8 * i) 8 : Nat)

/-- The hysteresis of a class in 1/8 °C. -/
def Mach.thermHyst (m : Mach) (d : SideId) (c : Nat) : Int := (8 * fieldOf (m.thermCfg d c) 4 4 : Nat)

/-- Whether a sensor is at a level after a sample (R569). -/
def Mach.atLevel (m : Mach) (d : SideId) (k i : Nat) (v : Int) : Bool :=
  let l := m.thermLevel d (thermClass k) i
  if bitOf (m.rd d (thmSense k)) i then decide (l - m.thermHyst d (thermClass k) ≤ v) else decide (l ≤ v)

/-- The latest reading of a channel, in 1/8 °C. -/
def Mach.thermRead (m : Mach) (d : SideId) (k : Nat) : Int := signedOf 16 (m.get d (thmSense k) 16 16)

/-- Whether a channel has a sensor on this part: heads of its stations and its first eight motors. -/
def thermFitted (p : Part) (k : Nat) : Bool := !(decide (32 ≤ k ∧ k < 38) && decide (stationsOf p ≤ k - 32))

/-- The side that judges a channel (R568): its own dies, and the active side for the rest. -/
def Mach.judges (m : Mach) (d : SideId) (k : Nat) : Bool := thermClass k == 0 || d == m.token

/-- The die channels of a side that can be judged and have been sampled. -/
def Mach.goodDies (m : Mach) (d : SideId) : List Nat := (List.range 32).filter (fun k => !bitOf (m.rd d (thmSense k)) 3)

/-- Whether a side's DIE class counts as at its throttle level (R568, R571): a die at the level, or every die sensor faulty. -/
def Mach.dieHot (m : Mach) (d : SideId) : Bool :=
  (m.goodDies d).isEmpty || (m.goodDies d).any (fun k => bitOf (m.rd d (thmSense k)) 1)

/-- Whether any DIE or BASE sensor is at its throttle level. -/
def Mach.coreHot (m : Mach) : Bool :=
  [SideId.a, .b].any (fun d => m.inService d && m.dieHot d) || bitOf (m.rdA (thmSense 38)) 1

/-- THM_STAT and THM_MAX follow the sensors (R577). -/
def Mach.showTherm (m : Mach) (d : SideId) : Mach :=
  let at_ (c i : Nat) : Bool := (List.range 47).any (fun k => thermClass k == c && bitOf (m.rd d (thmSense k)) i)
  let bits (i : Nat) : Nat := ((List.range 4).filter (fun c => at_ c i)).foldl setBitN 0
  let top := (m.goodDies d).foldl (fun b k => if m.thermRead d b < m.thermRead d k then k else b) ((m.goodDies d).headD 0)
  let m1 := ((m.put d 0x30010 24 4 (bits 0)).put d 0x30010 20 4 (bits 1)).put d 0x30010 16 4 (bits 2)
  (m1.put d 0x30010 8 8 top).wr d 0x30014
    (BitVec.ofNat 32 (unsignedOf 16 (m.thermRead d top) * 65536 + unsignedOf 16 (m.thermRead d 38)))

/-- A log entry of THM. -/
def Mach.logThm (m : Mach) (d : SideId) (k code sev : Nat) (args : List Int) : Mach := m.logFor d 0x00 k code sev args

/-! ### The throttle floor (R571) -/

/-- FLOOR moves to a level (R571, R578). -/
def Mach.setFloor (m : Mach) (n : Nat) : Mach :=
  let old := m.getA 0x20004 24 2
  if old = n then m else (((m.putB 0x20004 24 2 n).raise 5).logM 0x00 noInst 0x0503 1 [old, n]).perfFollow

/-- FLOOR moves one level slower, down to P3. -/
def Mach.floorSlower (m : Mach) : Mach := m.setFloor (min 3 (m.getA 0x20004 24 2 + 1))

/-- FLOOR_TIMER: R571. -/
def execFloorTimer (s : State) : Host.Outcome State Fault Refusal :=
  onM (fun m =>
    if !m.inService m.token then m
    else if m.coreHot then m.floorSlower
    else m.setFloor (m.getA 0x20004 24 2 - 1)) s

/-! ### Thermal shutdown (R572, R573) -/

/-- A shutdown record (R573), its CRC over offsets 0 to 59. -/
def withCrc (body : List Byte) : List Byte := body ++ wordBytes (crc32c body)

/-- The body of a shutdown record, with no pulse lost. -/
def Mach.shutBody (m : Mach) (d : SideId) (k : Nat) (v : Int) (sideOnly : Bool) (eng job : Nat) : List Byte :=
  let half (x : Int) : List Byte := leBytes 2 (unsignedOf 16 x)
  leBytes 4 0x54485344 ++ leBytes 4 (m.shut.count + 1) ++ leBytes 8 m.now ++ leBytes 1 (sideCode d) ++ leBytes 1 (thermClass k) ++
    leBytes 1 k ++ leBytes 1 (b2n sideOnly) ++ half v ++ half (m.thermLevel d (thermClass k) 2) ++
    half (signedOf 16 (m.get d 0x30014 16 16)) ++ half (signedOf 16 (m.get d 0x30014 0 16)) ++ leBytes 1 eng ++
    leBytes 1 (m.getA 0x20004 30 2) ++ leBytes 2 0 ++ leBytes 4 job ++ leBytes 4 0 ++ leBytes 8 m.records.lastRec ++ leBytes 12 0

/-- A shutdown record is written on every fitted side: a fourth replaces the oldest and sets OVERFLOW (R573, R574). -/
def Mach.writeShut (m : Mach) (body : List Byte) (waiting : Bool) : Mach :=
  let m1 := { m with shut := { m.shut with
    recs := (withCrc body :: m.shut.recs).take 3, overflow := m.shut.overflow || decide (3 ≤ m.shut.recs.length)
    count := m.shut.count + 1, waiting := waiting } }
  m1.onSides Mach.fitted (fun d t => t.setMgt d 20 true)

/-- A thermal shutdown begins (R572): of one side while its partner can go on, else of the module. -/
def Mach.thermalShutdown (m : Mach) (d : SideId) (k : Nat) (v : Int) : Mach :=
  let o := d.other
  let eng := engCode m.eng
  let job := m.armed
  if m.power.phase != .running then m
  else if thermClass k = 0 && m.part == .w9d && m.inService d && m.inService o && !m.dieHot o then
    let m1 := m.writeShut (m.shutBody d k v true eng job) false
    ({ m1 with shut := { m1.shut with stopped := setBitN m1.shut.stopped d.toNat } }).selfFault d 6
  else
    let m1 := (if engLive m.eng then m.faultEngine 4 else m).raise 1
    let m2 := { m1.outputsOff with power := { m1.power with phase := .thermalHold } }
    m2.writeShut (m2.shutBody d k v false eng job) true

/-- SHUT_HOLD_END: R572 steps 4 and 5. Pulses not yet delivered are counted, and power-down runs. -/
def Mach.shutHoldEnd (m : Mach) : Mach :=
  let lost := (List.range 8).foldl (fun n j => n + (m.rejOf j).queue.length) 0
  let m1 := match m.shut.recs with
    | r :: rs =>
      let body := r.take 36 ++ leBytes 4 lost ++ (r.drop 40).take 20
      { m with shut := { m.shut with recs := (if m.shut.waiting then withCrc body else r) :: rs, waiting := false } }
    | [] => { m with shut := { m.shut with waiting := false } }
  m1.localDown

/-! ### Samples (R569, R570) -/

/-- A station leaves its derate at once where it has no page in progress (R402). -/
def Mach.derateEnds (m : Mach) (s : Nat) : Mach :=
  if m.pages.any (fun e => match tabFind e.2.prog s with
      | some q => q.started && !q.ended
      | none => false) then m
  else (m.modStn s (fun t => { t with derate := false })).showDerate s false

/-- What the levels of a head do on its station (R402 to R404): the thermal bits, and the sample in SCB_HEAD_TEMP. -/
def Mach.headLevels (m : Mach) (d : SideId) (k : Nat) (v : Int) : Mach :=
  let s := k - 32
  let low := decide (v < m.thermLevel d 1 1 - m.thermHyst d 1)
  let m1 := m.wrB (scbBase s + 0x2C) (BitVec.ofNat 32 (unsignedOf 16 v * 65536 + 4 * b2n (m.atLevel d k 2 v) + 2 * b2n (m.atLevel d k 1 v) +
    b2n (m.atLevel d k 0 v)))
  let m2 := if m.thermLevel d 1 1 ≤ v then m1.setB (scbBase s) 27 true else m1
  let m3 := if m.thermLevel d 1 2 ≤ v then m2.setB (scbBase s) 26 true else m2
  if low then
    let m4 := (m3.setB (scbBase s) 27 false).setB (scbBase s) 26 false
    if m.bitA (scbBase s) 27 then m4.derateEnds s else m4
  else m3

/-- What a motor's sensor does to its channel (R570): 70 % of I_LIM at the throttle level, FAULT at the shut-down level. -/
def Mach.motorLevels (m : Mach) (n : Nat) (throttle shut : Bool) : Mach :=
  let m1 := m.modMotor n (fun x => { x with throttled := throttle })
  if shut then
    let m2 := (m1.motorFault n).modMotor n (fun x => { x with hot := true })
    if m.bitA (mdrBase n) 9 then m2.faultEngine 4 else m2
  else m1

/-- The three levels of a sample: those newly reached raise their events and are logged (R570, R578). -/
def Mach.thermEvents (m : Mach) (d : SideId) (k : Nat) (new : List Bool) (v : Int) : Mach :=
  let one (t : Mach) (on : Bool) (ev code sev : Nat) : Mach :=
    if on then (if thermClass k = 0 then t.raiseOn d ev else t.raise ev).logThm d k code sev [v] else t
  let m1 := one m (new.getD 0 false) 4 0x0501 1
  one (one m1 (new.getD 1 false) 5 0x0502 2) (new.getD 2 false) 6 0x0504 3

/-- A good sample is judged (R569, R570). -/
def Mach.thermJudge (m : Mach) (d : SideId) (k : Nat) (v : Int) : Mach :=
  let now_ := (List.range 3).map (fun i => m.atLevel d k i v)
  let new := (List.range 3).map (fun i => m.atLevel d k i v && !bitOf (m.rd d (thmSense k)) i)
  let w := unsignedOf 16 v * 65536 + b2n (now_.getD 0 false) + 2 * b2n (now_.getD 1 false) + 4 * b2n (now_.getD 2 false)
  let c := thermClass k
  let m1 := if c = 1 && m.judges d k then m.headLevels d k v else m
  let m2 := (m1.wr d (thmSense k) (BitVec.ofNat 32 w)).showTherm d
  if !m.judges d k then m2
  else
    let m3 := m2.thermEvents d k new v
    let m4 := if c = 3 then m3.motorLevels (k - 39) (now_.getD 1 false) (new.getD 2 false) else m3
    let m5 := if (c = 0 || c = 2) && new.getD 1 false then m4.floorSlower else m4
    if (c = 0 || c = 2) && new.getD 2 false then m5.thermalShutdown d k v else m5

/-- A channel's sensor is faulty: it is excluded from judgement and logged at its onset (R568). A side whose every die sensor is faulty
counts as at its throttle level. -/
def Mach.thermFault (m : Mach) (d : SideId) (k : Nat) (v : Option Int) : Mach :=
  let was := bitOf (m.rd d (thmSense k)) 3
  let hot := m.dieHot d
  let read := match v with
    | some x => unsignedOf 16 x
    | none => m.get d (thmSense k) 16 16
  let m1 := (m.wr d (thmSense k) (BitVec.ofNat 32 (read * 65536 + 8))).showTherm d
  let m2 := if was || !m.judges d k then m1 else m1.logThm d k 0x0505 2 []
  if thermClass k = 0 && !hot && m2.dieHot d && (m2.goodDies d).isEmpty then m2.floorSlower else m2

/-- HOUSEKEEPING_SAMPLE: R402, R404, R568 to R572. A head or motor thermistor that reads open at the first sample after its rails rise
or its MOTOR_CONFIG is not fitted. -/
def execHousekeepingSample (d : SideId) (k : Nat) (value : Option Int) (s : State) : Host.Outcome State Fault Refusal :=
  onM (fun m =>
    if !m.inService d || 128 ≤ k then m
    else if k = 127 then m.put d 0x30010 0 8 ((m.get d 0x30010 0 8 + 1) % 256)
    else if 47 ≤ k || !thermFitted m.part k then m
    else
      let test := decide (32 ≤ k) && k != 38 && hasBit m.shut.fitTest (k - 32)
      let m1 := if test then { m with shut := { m.shut with fitTest := clrBitN m.shut.fitTest (k - 32) } } else m
      match value with
      | none =>
        if test then m1.onSides Mach.fitted (fun e t => t.wr e (thmSense k) 16)
        else if bitOf (m.rd d (thmSense k)) 4 then m1
        else m1.thermFault d k none
      | some v =>
        if !test && bitOf (m.rd d (thmSense k)) 4 then m1
        else if v < -320 ∨ 1600 < v then m1.thermFault d k (some v)
        else m1.thermJudge d k v) s

end Sys2Proof.Machine
end

