-- ==== Sys2Proof/Machine/InputPower.lean ====
section
/-!
DEFINITION. The input supply and the buttons (R80, R107 to R114): feeds, power-good, input loss, collapse, the hold-off, PB_N and MR_N, the
thermal restart, and the end of a power-down, where each shutdown goes on.
-/

namespace Sys2Proof.Machine

/-! ### Phases of the module's supply -/

/-- Change the supply. -/
def Mach.modPower (m : Mach) (f : Power → Power) : Mach := { m with power := f m.power }

/-- The module enters a phase. -/
def Mach.setPhase (m : Mach) (p : ModPhase) : Mach := m.modPower (fun q => { q with phase := p })

/-- A restart falls due: while MR_N is low the module is held in manual reset instead (R114). -/
def Mach.restartDue (m : Mach) (cause : Nat) : Mach :=
  if m.power.mrLow then m.modPower (fun q => { q with phase := .manualReset, holdoff := false, afterHold := false })
  else m.restartModule cause

/-- The restart hold-off starts (R108). -/
def Mach.startHoldoff (m : Mach) : Mach := (m.modPower (fun q => { q with holdoff := true, afterHold := false })).seqBit 18 true

/-- No hold-off runs or is behind, and the push-button grace time is over. -/
def Mach.endHoldoff (m : Mach) : Mach :=
  (m.modPower (fun q => { q with grace := false, holdoff := false, afterHold := false })).seqBit 18 false

/-- The end of a manual reset (R114): MR_N is high, power-down has ended, or the rails were released (R109), and the input holds. -/
def Mach.manualEnd (m : Mach) : Mach :=
  if m.power.phase == .manualReset && !m.power.mrLow && m.power.inputGood && (m.seqState = 0 || m.seqState = 4) then m.restartModule 3 else m

/-- What a shutdown goes on with once STATE is OFF: the hold-off of an input loss whose input has returned (R108), SOFT_OFF (R112), the
restart of a manual reset (R114), or the wait of a thermal shutdown (R572). A power-up held by PENDING_UP does not follow it. SOFT_OFF
hears no bus (R113). -/
def Mach.phaseOff (m : Mach) : Mach :=
  if m.seqState != 0 && !(m.seqState = 4 && m.power.phase == .longPress) then m
  else
    match m.power.phase with
    | .inputLoss =>
      let m1 := m.seqBit 23 false
      if m.power.holdoff || m.power.afterHold then m1 else m1.startHoldoff
    | .longPress => ((m.seqBit 23 false).deaf.holdModule).setPhase .softOff
    | .manualReset => (m.seqBit 23 false).manualEnd
    | .thermalHold => if m.shut.waiting then m else (m.seqBit 23 false).holdModule.setPhase .thermalWait
    | .unpowered => m
    | .running => m
    | .softOff => m
    | .collapsed => m
    | .thermalWait => m

/-- Step 1 of an input-loss shutdown (R107, R370): pages end with POWER_LOSS, and the outputs are off. `fault` says that the engine enters
FAULTED with cause 0x03 (R190). -/
def Mach.powerLoss (m : Mach) (fault : Bool) : Mach :=
  let f := if fault then fPower ||| fFaulted else fPower
  (if fault then m.enterFaulted 3 f (f ||| fWithdrawn) else m.closePages f (f ||| fWithdrawn)).outputsOff

/-- Whether Drone supervises the input, so that its happenings are logged: not while both sides are held. -/
def Mach.supervised (m : Mach) : Bool :=
  match m.power.phase with
  | .running => true
  | .inputLoss => true
  | .longPress => true
  | .thermalHold => true
  | .unpowered => false
  | .softOff => false
  | .manualReset => false
  | .collapsed => false
  | .thermalWait => false

/-! ### The input (R47, R80, R107 to R110) -/

/-- FEED_CHANGE: R47, R80, R113. A feed reversed counts as absent. DESIGN CHOICE: both feeds removed end SOFT_OFF at once, with the always-on
domain lost, though its internal store might outlive a short removal. -/
def execFeedChange (feed : Nat) (present : Bool) (mv : Nat) (s : State) : Host.Outcome State Fault Refusal :=
  onM (fun m =>
    if 2 ≤ feed then m
    else
      let was := if feed = 0 then m.power.feedX1 else m.power.feedX2
      let m1 := m.modPower (fun q => if feed = 0 then { q with feedX1 := present } else { q with feedX2 := present })
      let m2 := if was && !present && m1.supervised then (m1.raise 2).logM 0x00 feed 0x0201 2 [(mv : Int)] else m1
      if m2.power.phase == .softOff && !m2.power.feedX1 && !m2.power.feedX2 then
        m2.modPower (fun q => { q with phase := .unpowered, alwaysOn := false, inputGood := false })
      else m2) s

/-- The always-on domain powers up (R70, R126, R669): the SEQ registers take their reset values, the straps are read, the values that
SEQ_PERSIST saved are loaded, both reset outputs are low, and the RTC starts from a value that the spec does not give. -/
def Mach.alwaysOnUp (m : Mach) : Mach :=
  let m1 := { m with
    seqRegs := [], bus := Bus.init, rtc := Config.freeNat m.fresh 0
    seq := { Seq.init with saved := m.seq.saved } }
  let m2 := m1.modPower (fun q => { q with alwaysOn := true, latched := q.straps, heads := Config.freeNat m.fresh 1 % 64 })
  let m3 := (m2.put .a 0x40020 0 4 m.power.straps.modId).put .a 0x40020 16 16 (fieldOf m.seq.saved 16 16)
  ((m3.put .a 0x40000 16 8 (fieldOf m.seq.saved 8 8)).put .a 0x40000 29 1 (fieldOf m.seq.saved 0 1)).assertOutputs

/-- POWER_GOOD: R81, R108, R109. -/
def execPowerGood (s : State) : Host.Outcome State Fault Refusal :=
  onToken (fun m =>
    let m1 := (m.modPower (fun q => { q with inputGood := true })).modBus (fun b => { b with lastHb := none })
    match m.power.phase with
    | .unpowered => m1.alwaysOnUp.restartDue 0
    | .inputLoss =>
      let m2 := m1.seqBit 20 false
      if m.power.afterHold then m2.restartDue 1
      else if m.seqState = 0 && !m.power.holdoff then m2.startHoldoff
      else m2
    | .collapsed =>
      let m2 := m1.seqBit 20 false
      if m.power.afterHold then m2.restartDue 1
      else if !m.power.holdoff then m2.startHoldoff
      else m2
    | .manualReset => (m1.seqBit 20 false).manualEnd
    | .running => m1.seqBit 20 false
    | .longPress => m1.seqBit 20 false
    | .softOff => m1.seqBit 20 false
    | .thermalHold => m1.seqBit 20 false
    | .thermalWait => m1.seqBit 20 false) s

/-- INPUT_LOW: R107, R108. An input that falls again while the hold-off runs makes it start afresh at power-good. -/
def execInputLow (mv : Nat) (s : State) : Host.Outcome State Fault Refusal :=
  onM (fun m =>
    if m.power.phase == .unpowered then m
    else
      let m1 := (m.modPower (fun q => { q with inputGood := false })).seqBit 20 true
      let m2 := if m.supervised then (m1.raise 2).logM 0x00 noInst 0x0202 3 [(mv : Int)] else m1
      match m.power.phase with
      | .running => (((m2.powerLoss true).setPhase .inputLoss).localDown).phaseOff
      | .inputLoss =>
        if m.power.holdoff && m.power.inputGood then m2.endHoldoff else m2
      | .thermalHold => m2.localDown.phaseOff
      | .unpowered => m2
      | .longPress => m2
      | .softOff => m2
      | .manualReset => m2
      | .collapsed => if m.power.holdoff && m.power.inputGood then m2.endHoldoff else m2
      | .thermalWait => m2) s

/-- COLLAPSE: R109, R110, R370. Every rail is released at once, and both sides are lost; in SOFT_OFF only the rails and outputs change
(R113). -/
def execCollapse (s : State) : Host.Outcome State Fault Refusal :=
  onM (fun m =>
    if m.power.phase == .unpowered then m
    else
      let m1 := if m.supervised then m.logM 0x00 noInst 0x0203 3 [(m.seqState : Int)] else m
      let m2 := (List.range (railsOf m.part)).foldl (fun t r => if t.railOn r then t.setMeas r false false false false else t) m1
      let m3 := ((((m2.setSeq 4).seqBit 19 true).seqBit 20 true).seqBit 23 false).assertOutputs.modSeq
        (fun q => { q with stnDown := [], inWindow := false })
      let m4 := (m3.modBus (fun b => { b with grouped := false })).modPower (fun q => { q with inputGood := false })
      if m.power.phase == .softOff then m4
      else ((m4.powerLoss false).holdModule.setPhase .collapsed).startHoldoff) s

/-- HOLDOFF_END: R108, R109. -/
def execHoldoffEnd (s : State) : Host.Outcome State Fault Refusal :=
  onToken (fun m =>
    if !m.power.holdoff then m
    else
      let m1 := (m.modPower (fun q => { q with holdoff := false })).seqBit 18 false
      if m1.power.inputGood then m1.restartDue 1 else m1.modPower (fun q => { q with afterHold := true })) s

/-- ALWAYS_ON_LOST: R109. -/
def execAlwaysOnLost (s : State) : Host.Outcome State Fault Refusal :=
  onM (fun m =>
    if m.power.phase == .collapsed || m.power.phase == .softOff then
      m.modPower (fun q => { q with phase := .unpowered, alwaysOn := false, inputGood := false, holdoff := false, afterHold := false })
    else m) s

/-- The straps as they read (R69): 0 when tied and 1 when open. -/
def strapWord (x : Straps) : Int := ((b2n x.svcAddrOpen + 2 * (x.modId % 16) + 32 * b2n (!x.seqTermTied) : Nat) : Int)

/-- STRAP_CHANGED: R70. What was read at the power-up of the always-on domain stays in force until the next one; the always-on domain sees
and logs the change, whatever the sides do. -/
def execStrapChanged (straps : Straps) (s : State) : Host.Outcome State Fault Refusal :=
  onM (fun m =>
    let m1 := if m.power.alwaysOn then m.logM 0x00 noInst 0x020C 1 [strapWord m.power.straps, strapWord straps] else m
    m1.modPower (fun q => { q with straps := straps })) s

/-! ### PB_N and MR_N (R111 to R114, R566) -/

/-- The grace time in seconds (R92). -/
def Mach.pbGrace (m : Mach) : Nat := clampNat 1 60 (m.get .a 0x40000 16 8)

/-- A short press acts by the sequencer's state (R111). -/
def Mach.shortPress (m : Mach) : Mach :=
  match m.seqState with
  | 0 => m.askUp
  | 1 => m.askDown.phaseOff
  | 2 =>
    if m.power.grace then m.logM 0x00 noInst 0x0105 0 [Config.freeInt m.fresh 0]
    else ((m.raise 1).modPower (fun q => { q with grace := true })).logM 0x00 noInst 0x0104 1 [(m.pbGrace : Int)]
  | 3 => m.askUp
  | _ => m

/-- PB_SHORT_PRESS: R111, R566. From DOZE or HIBERNATE it is consumed as the wake; from SOFT_OFF the module restarts first. -/
def execPbShortPress (s : State) : Host.Outcome State Fault Refusal :=
  onToken (fun m =>
    match m.power.phase with
    | .softOff => if m.power.inputGood && !m.power.mrLow then (m.restartModule 2).askUp else m
    | .running =>
      if 2 ≤ m.sleepState then m.wakeBy .button
      else if m.sleepState = 1 then (m.wakeBy .button).shortPress
      else m.shortPress
    | .unpowered => m
    | .inputLoss => m.shortPress
    | .thermalHold => m.shortPress
    | .longPress => m.shortPress
    | .manualReset => m.shortPress
    | .collapsed => m.shortPress
    | .thermalWait => m.shortPress) s

/-- PB_GRACE_END: R111, R121. On a slave that hears its master the off request is only passed on, and the job ends when the master's
power-down begins. -/
def execPbGraceEnd (s : State) : Host.Outcome State Fault Refusal :=
  onM (fun m =>
    let m1 := m.modPower (fun q => { q with grace := false })
    if !m.power.grace then m
    else if m.isSlave then m1.askDown.modBus (fun b => { b with offAsked := true })
    else m1.abortJob.askDown.phaseOff) s

/-- PB_LONG_PRESS: R112, R115. It needs no firmware, so it acts while the sides are held too, where no engine is left to stop. -/
def execPbLongPress (s : State) : Host.Outcome State Fault Refusal :=
  onM (fun m =>
    if m.power.phase == .unpowered || m.power.phase == .softOff || m.power.phase == .longPress then m
    else
      let m1 := if m.supervised then m.powerLoss true else m
      (m1.assertOutputs.endHoldoff.setPhase .longPress).localDown.phaseOff) s

/-- MR_ASSERT: R114, R115. -/
def execMrAssert (s : State) : Host.Outcome State Fault Refusal :=
  onM (fun m =>
    if m.power.phase == .unpowered then m.modPower (fun q => { q with mrLow := true })
    else
      let m1 := m.assertOutputs.modPower (fun q => { q with mrLow := true })
      if m.supervised then
        ((m1.powerLoss false).holdModule.endHoldoff.setPhase .manualReset).localDown.phaseOff
      else m1) s

/-- MR_RELEASE: R114. -/
def execMrRelease (s : State) : Host.Outcome State Fault Refusal :=
  onToken (fun m => (m.modPower (fun q => { q with mrLow := false })).manualEnd) s

/-! ### The end of a power-down (R101, R102, R572) -/

/-- RAIL_DISCHARGED: R101 step 3. A station switched off by itself goes on in the same way, and rails that no step waits for have
fallen by then. -/
def execRailDischarged (s : State) : Host.Outcome State Fault Refusal :=
  onToken (fun m =>
    if m.seqState = 3 then
      let m1 := m.settle (m.stepRails m.curStep)
      if m.bus.grouped && m.bus.stepDone then m1 else m1.afterDrop.servePending.phaseOff
    else
      let m1 := m.settle ((List.range (railsOf m.part)).filter (fun r => !tabHas m.seq.stnDown (r / 4)))
      m.seq.stnDown.foldl (fun t e =>
        (t.settle ((t.stepRails e.2).filter (fun r => r / 4 == e.1))).stationDrop e.1 e.2) m1) s

/-- Whether a power-down has left a rail behind undischarged: another rail of its step has ended the step's wait (R102). -/
def Mach.leftBehind (m : Mach) (rail : Nat) : Bool :=
  (m.seqState = 3 || m.seqState = 0) &&
    (List.range m.stepCount).any (fun k =>
      (decide (m.curStep < k) || m.seqState = 0 || (m.bus.grouped && m.bus.stepDone)) && (m.stepRails k).contains rail)

/-- DISCHARGE_TIMEOUT: R102. Rails of one step that miss the same end are told one after the other; the first of them ends the
step. -/
def execDischargeTimeout (rail mv : Nat) (s : State) : Host.Outcome State Fault Refusal :=
  onToken (fun m =>
    let step := ((List.range m.stepCount).find? (fun k => (m.stepRails k).contains rail)).getD m.curStep
    let mark (t : Mach) : Mach := ((t.seqBit 22 true).seqBit (rail / 4) true).logM 0 rail 0x0205 3 [(step : Int), (mv : Int)]
    if m.railOn rail || bitOf (m.rd .a (railMeas rail)) 0 || railsOf m.part ≤ rail then m
    else if m.seqState = 3 && (m.stepRails m.curStep).contains rail && !(m.bus.grouped && m.bus.stepDone) then
      (mark m).afterDrop.servePending.phaseOff
    else
      match tabFind m.seq.stnDown (rail / 4) with
      | some k => (mark m).stationDrop (rail / 4) k
      | none => if m.leftBehind rail then mark m else m) s

/-- SHUT_HOLD_END: R572 steps 4 and 5. -/
def execShutHoldEnd (s : State) : Host.Outcome State Fault Refusal :=
  onM (fun m => if m.power.phase == .thermalHold && m.shut.waiting then m.shutHoldEnd.phaseOff else m) s

/-- THERMAL_RESTART: R572 step 6: the module restarts, or the side that a shutdown of its own has stopped. -/
def execThermalRestart (s : State) : Host.Outcome State Fault Refusal :=
  onToken (fun m =>
    match m.power.phase with
    | .thermalWait => if m.power.inputGood then m.restartDue 8 else m
    | .running =>
      m.onSides (fun t d => t.fitted d && hasBit t.shut.stopped d.toNat && (t.side d).st == .down) (fun d t =>
        (t.startSide d 8).modSide d (fun x => { x with own := true }))
    | .unpowered => m
    | .inputLoss => m
    | .longPress => m
    | .softOff => m
    | .manualReset => m
    | .collapsed => m
    | .thermalHold => m) s

/-- RESTART: R118, R669. Only the master's frame reaches this module. -/
def execRestart (dest : Nat) (s : State) : Host.Outcome State Fault Refusal :=
  onToken (fun m =>
    let id := m.get .a 0x40020 0 4
    if id != 0 && (dest == 0xFF || dest == id) && m.power.phase == .running then m.restartModule 5 else m) s

/-- TOKEN_TO_SIDE_B: R84, R585. -/
def execTokenToSideB (s : State) : Host.Outcome State Fault Refusal :=
  onToken (fun m =>
    if m.part == .w9d && m.token == .a && decide (9 ≤ m.b.step) && decide (m.a.step < 9) && m.eng == .configured then
      { m with token := .b, safe := false }.setSt .b .alone
    else m) s

end Sys2Proof.Machine
end

