-- ==== Sys2Proof/Machine/StartUp.lean ====
section
/-!
DEFINITION. The start-up of a side, step by step (R81 to R89, R635, R643): each row is one step's end. `Side.step` holds the latest step
that has ended, so a step that comes out of turn has no effect.
-/

namespace Sys2Proof.Machine

/-- Whether a side is in its start-up, with a given step behind it and no later one than another. -/
def Mach.startingAt (m : Mach) (d : SideId) (lo : Nat) : Bool := m.fitted d && (m.side d).st == .starting && decide (lo ≤ (m.side d).step)

/-- A step of the start-up has ended. -/
def Mach.reachStep (m : Mach) (d : SideId) (k : Nat) : Mach := m.modSide d (fun s => { s with step := max s.step k })

/-- OTP_READ_DONE: R81 step 2, R84, R541. -/
def execOtpReadDone (d : SideId) (s : State) : Host.Outcome State Fault Refusal :=
  onM (fun m =>
    if m.startingAt d 0 && decide ((m.side d).step < 2) then
      ((m.calLoad d).setMgt d 20 (!m.shut.recs.isEmpty)).reachStep d 2
    else m) s

/-- KNOWN_ANSWER_TESTS_DONE: R81 step 3, R643, R644. A core that fails serves nothing, so the start-up goes no further. -/
def execKnownAnswerTestsDone (d : SideId) (failed : Nat) (s : State) : Host.Outcome State Fault Refusal :=
  onM (fun m =>
    if m.startingAt d 2 && decide ((m.side d).step < 3) && !(m.side d).core.error then
      if failed = 0 then (m.put d 0xFE0000 29 3 1).reachStep d 3
      else
        let m1 := m.coreError d failed
        (m1.countFault 0x18 (sideCode d) 0).1.logFor d 0x0F noInst 0x060B 3 [8] 0x18
    else m) s

/-- ENDPOINT_READY: R81 step 4. -/
def execEndpointReady (d : SideId) (s : State) : Host.Outcome State Fault Refusal :=
  onM (fun m =>
    if m.fitted d && (m.side d).st != .down && decide (3 ≤ (m.side d).step) then
      (m.modSide d (fun x => { x with endpoint := true })).reachStep d 4
    else m) s

/-- A trial bank's fallback is logged and raised once the host link runs (R635). -/
def Mach.reportFall (m : Mach) (d : SideId) : Mach :=
  if (m.side d).fell && (m.side d).linkUp then
    ((m.raiseOn d 127).logFor d 0x0F noInst 0x0704 3 []).modSide d (fun x => { x with fell := false })
  else m

/-- The number of the bank that a side prefers. -/
def BootRec.preferred (b : BootRec) : Nat := b2n b.preferB

/-- FW_BANK_VERIFIED: R81 step 5, R83, R634, R635. The row does not tell which check failed, so its number is a free value. -/
def execFwBankVerified (d : SideId) (ok : Bool) (s : State) : Host.Outcome State Fault Refusal :=
  onM (fun m =>
    let x := m.side d
    if !m.startingAt d 3 || m.mgt d 23 || m.mgt d 21 || x.core.error then m
    else if ok then
      let bank := if x.bankTry = 0 then x.boot.preferred else 1 - x.boot.preferred
      let falls := decide (x.bankTry ≠ 0) && x.boot.trial
      let boot := if falls then { x.boot with preferB := !x.boot.preferB, trial := false, tried := false } else x.boot
      let m1 := m.modSide d (fun y => { y with boot := boot, fell := y.fell || falls })
      (((m1.setMgt d 23 true).put d mgtStat 22 1 bank).reachStep d 5).reportFall d
    else
      let m1 := (m.raiseOn d 127).logFor d 0x0F noInst 0x0703 2 [((Config.freeNat m.fresh 0 % 6 + 1 : Nat) : Int)]
      if x.bankTry = 0 then m1.modSide d (fun y => { y with bankTry := 1 }) else m1.setMgt d 21 true) s

/-- DRAM_TRAINED: R81 step 6. -/
def execDramTrained (d : SideId) (s : State) : Host.Outcome State Fault Refusal :=
  onM (fun m => if m.startingAt d 3 && m.mgt d 23 then m.reachStep d 6 else m) s

/-- The image memories with one slice of a side initialised. -/
def Images.clearSlice (g : Images) (d : SideId) (i : Nat) : Images :=
  match d with
  | .a => { g with a := g.a.clearSlice i }
  | .b => { g with b := g.b.clearSlice i }

/-- SLICE_INITIALISED: R81 steps 7 and 11. -/
def execSliceInitialised (d : SideId) (slice : Nat) (s : State) : Host.Outcome State Fault Refusal :=
  onMem (fun g m =>
    if m.fitted d && (m.side d).st != .down && decide (6 ≤ (m.side d).step) && decide (slice < slicesOf m.part) && !m.mgt d slice then
      let m1 := m.setMgt d slice true
      (g.clearSlice d slice, if m1.get d mgtStat 0 16 = 2 ^ slicesOf m.part - 1 then m1.setMgt d 26 true else m1)
    else (g, m)) s

/-- APP_READY: R81 step 8, R368. The OPEN records of the journal were made final when the last side left service (`Mach.afresh`). -/
def execAppReady (d : SideId) (s : State) : Host.Outcome State Fault Refusal :=
  onM (fun m => if m.startingAt d 6 && !m.mgt d 24 then (m.setMgt d 24 true).reachStep d 8 else m) s

/-- RST_HOST_N and AUTO_UP at the start of reduced service (R92, R115). The restart of one side changes nothing in the SEQ block
(R669). DESIGN CHOICE: R121 names only a short press, GO_UP and GO_DOWN; AUTO_UP on a slave that hears its master is passed to the master
too. -/
def Mach.serviceOutputs (m : Mach) (d : SideId) : Mach :=
  if (m.side d).own then m
  else
    let m1 := if !m.hostByStep && m.power.rstHost.low && !m.power.rstHost.stretch then m.rstHost RstOut.begin_ else m
    if bitOf (m1.rd .a 0x40000) 29 then m1.askUp else m1

/-- The side takes its place in service (R84, R585): alone with the token, or beside the partner that holds it. -/
def Mach.takePlace (m : Mach) (d : SideId) : Mach :=
  (if m.token = d then { m with safe := false }.setSt d .alone else m).pairUp

/-- REDUCED_SERVICE: R81 step 9, R84, R85, R92, R115, R541, R585, R602. -/
def execReducedService (d : SideId) (s : State) : Host.Outcome State Fault Refusal :=
  onM (fun m =>
    if !m.startingAt d 8 || decide (9 ≤ (m.side d).step) then m
    else
      let m1 := ((m.setMgt d 25 true).setMgt d 30 true).reachStep d 9
      let m2 := m1.modSide d (fun x => { x with alive := true, faultN := false })
      let m3 := ((m2.takePlace d).raiseOn d 1).logFor d 0x00 noInst 0x0103 0 [Config.freeInt m.fresh 0]
      let m4 := m3.serviceOutputs d
      if bitOf (m4.rd d calStat) 31 || bitOf (m4.rd d calStat) 30 then
        (m4.raiseOn d 107).logFor d 0x0F noInst 0x0305 2 []
      else m4) s

/-- PXC_READY: R81 step 12. -/
def execPxcReady (d : SideId) (s : State) : Host.Outcome State Fault Refusal :=
  onM (fun m => if m.fitted d && decide (9 ≤ (m.side d).step) && (m.side d).st != .down then m.setMgt d 28 true else m) s

/-- The trial bank that a side runs is marked good, and its SEC_VERSION raises the OTP counter (R635). -/
def Mach.trialGood (m : Mach) (d : SideId) : Mach :=
  let b := (m.side d).boot
  let bank := m.runs d
  if b.trial && bank == b.preferred then
    let m1 := m.modSide d (fun x => { x with boot :=
      { b with trial := false, tried := false, goodA := b.goodA || bank == 0, goodB := b.goodB || bank == 1 } })
    m1.put d 0xFE0008 26 6 (max (m1.get d 0xFE0008 26 6) (m1.fwField d bank 2))
  else m

/-- ENGINE_READY: R81 step 13, R84, R85, R635. -/
def execEngineReady (d : SideId) (s : State) : Host.Outcome State Fault Refusal :=
  onM (fun m =>
    if m.fitted d && decide (9 ≤ (m.side d).step) && (m.side d).st != .down && !m.mgt d 31 && m.mgt d 28 && m.mgt d 27 && m.mgt d 26 then
      let m1 := (((m.setMgt d 31 true).setMgt d 30 false).trialGood d).raiseOn d 0
      m1.logFor d 0x00 noInst 0x0102 0 [Config.freeInt m.fresh 0, (b2n (m.mgt d 29) : Int)]
    else m) s

end Sys2Proof.Machine
end

