-- ==== Sys2Proof/Machine/Security.lean ====
section
/-!
DEFINITION. Security (R619 to R649): roles, key slots and their commands (R216), zeroisation and tamper, and the consumable tokens (R637 to
R642).
-/

namespace Sys2Proof.Machine

/-! ### Keys (R625, R626) -/

/-- DOLSOSET_ROOT, the key in ROM. -/
def rootKey : List Byte := Config.pubKey 0 0 0

/-- TOKEN_TRUST in force: the key loaded, or the Dolsoset default. -/
def Mach.tokenTrust (m : Mach) : List Byte := if m.sec.trust.isEmpty then Config.pubKey 0 3 0 else m.sec.trust

/-- The side that a key slot word names, where it names one. -/
def slotSide (w : Nat) : Option SideId := if w / 256 % 256 = 1 then some .a else if w / 256 % 256 = 2 then some .b else none

/-- The slot that a key slot word names. -/
def slotNo (w : Nat) : Nat := w % 256

/-- Whether a key slot word is ill-formed (R626): reserved bits, no such slot or side, or a side slot without a side. -/
def slotBad (w : Nat) : Bool :=
  decide (65536 ≤ w) || decide (5 < slotNo w) || decide (2 < w / 256 % 256) || ((slotNo w == 1 || slotNo w == 2) && (slotSide w).isNone)

/-- Whether the side that a key slot word names is not fitted. -/
def Mach.slotAbsent (m : Mach) (w : Nat) : Bool := match slotSide w with
  | some d => !m.fitted d
  | none => false

/-- Whether a side slot's side is out of service. -/
def Mach.slotDown (m : Mach) (w : Nat) : Bool := match slotSide w with
  | some d => (slotNo w == 1 || slotNo w == 2) && !m.inService d
  | none => false

/-- The public key of a slot in force, where it holds one. -/
def Mach.slotKey (m : Mach) (w : Nat) : Option (List Byte) :=
  let d := (slotSide w).getD m.token
  let core := (m.side d).core
  let held (k : List Byte) : Option (List Byte) := if k.isEmpty then none else some k
  if slotNo w = 0 then some rootKey
  else if slotNo w = 1 then (if core.identity then some (Config.pubKey d.toNat 1 0) else none)
  else if slotNo w = 2 then some (Config.pubKey d.toNat 2 core.gen)
  else if slotNo w = 3 then some m.tokenTrust
  else if slotNo w = 4 then held m.sec.owner
  else held m.sec.cosign

/-- SEC_STAT as a side reads it (R648). -/
def Mach.secStat (m : Mach) (d : SideId) : Word :=
  let c := (m.side d).core
  let bits := 2 ^ 28 * b2n m.sec.held + 2 ^ 27 * b2n (!m.sec.owner.isEmpty) + 2 ^ 26 * b2n (!m.sec.cosign.isEmpty) +
    2 ^ 25 * b2n c.identity + 2 ^ 24 * b2n c.certified + 2 ^ 23 * b2n c.pending.isSome + 2 ^ 22 * b2n m.sec.locked
  m.rd d 0xFE0000 ||| BitVec.ofNat 32 bits

/-- Change the module's part of security. -/
def Mach.modSec (m : Mach) (f : Sec → Sec) : Mach := { m with sec := f m.sec }

/-- Change a side's core. -/
def Mach.modCore (m : Mach) (d : SideId) (f : SecCore → SecCore) : Mach := m.modSide d (fun x => { x with core := f x.core })

/-- A key slot changes (R630, R649): event 124 and KEY_CHANGE with the side and REC_NEXT_SEQ. -/
def Mach.keyChange (m : Mach) (side : Nat) : Mach := (m.raise 124).logM 0x0F noInst 0x0706 1 [(side : Int), (m.records.next : Int)]

/-- Whether the active side's core serves nothing (R644). -/
def Mach.coreDead (m : Mach) : Bool := (m.side m.token).core.error

/-- The role that a Crypto Officer command lacks (R216, R624). -/
def Mach.needsOfficer (m : Mach) : Option Nat := if m.sec.held then none else some 1

/-! ### Roles (R621 to R624) -/

/-- SEC_CHALLENGE: R623. -/
def planSecChallenge (msg : Msg) (m : Mach) : Plan :=
  let bytes := (List.range 32).map (fun i => Config.freeByte m.fresh i)
  { param := firstBad [(numAt msg.payload 0 4 != 1, 0)]
    state := m.coreDead
    reply := bytes
    act := fun t => t.modSec (fun x => { x with challenge := some bytes }) }

/-- SEC_CHALLENGE: R216, R623. -/
def execSecChallenge (msg : Msg) (s : State) : Host.Outcome State Fault Refusal :=
  onM (fun m => m.runCmd { opcode := 0x0B02, lenMin := 4, lenMax := 4, states := inCAPDF } msg (planSecChallenge msg)) s

/-- Whether a SEC_AUTH verifies (R623). -/
def Mach.authOk (m : Mach) (sig : List Byte) : Bool :=
  match m.sec.challenge with
  | none => false
  | some c => ecdsaOk m.sec.owner (c ++ [1, 0, 0, 0] ++ leBytes 8 Config.moduleSerial) sig

/-- A SEC_AUTH that was checked and failed: it is counted, and the third within 10 minutes locks SEC_AUTH (R623, R649). -/
def Mach.authFails (m : Mach) : Mach :=
  let recent := m.now :: m.sec.fails.filter (fun t => decide (m.now ≤ t + 600000000))
  let m1 := m.modSec (fun x => { x with held := false, challenge := none, fails := recent })
  let m2 := (m1.raise 123).logM 0x0F noInst 0x0709 2 []
  if 3 ≤ recent.length then ((m2.modSec (fun x => { x with locked := true })).raise 123).logM 0x0F noInst 0x070A 2 [] else m2

/-- SEC_AUTH: R621, R623. -/
def planSecAuth (msg : Msg) (m : Mach) : Plan :=
  let ok := !m.sec.locked && m.authOk (bytesAt msg.payload 8 64)
  { param := firstBad [(numAt msg.payload 0 4 != 1, 0)]
    state := m.coreDead
    status := if ok then stOk else stAuthFailed
    act := fun t =>
      if ok then t.modSec (fun x => { x with held := true, challenge := none })
      else if t.sec.locked then ((t.modSec (fun x => { x with held := false })).raise 123).logM 0x0F noInst 0x0709 2 []
      else t.authFails }

/-- SEC_AUTH: R216, R623. -/
def execSecAuth (msg : Msg) (s : State) : Host.Outcome State Fault Refusal :=
  onM (fun m => m.runCmd { opcode := 0x0B01, lenMin := 72, lenMax := 72, states := inCAPDF } msg (planSecAuth msg)) s

/-- CO_ROLE_TIMEOUT: R621. -/
def execCoRoleTimeout (s : State) : Host.Outcome State Fault Refusal := onM (fun m => m.modSec (fun x => { x with held := false })) s

/-- CHALLENGE_EXPIRY: R623. -/
def execChallengeExpiry (s : State) : Host.Outcome State Fault Refusal :=
  onM (fun m => m.modSec (fun x => { x with challenge := none })) s

/-- AUTH_LOCK_END: R623. -/
def execAuthLockEnd (s : State) : Host.Outcome State Fault Refusal := onM (fun m => m.modSec (fun x => { x with locked := false })) s

/-! ### Key provisioning (R626, R629, R630) -/

/-- SEC_CSR: R629. -/
def planSecCsr (msg : Msg) (m : Mach) : Plan :=
  let w := numAt msg.payload 0 4
  let d := (slotSide w).getD m.token
  let len := numAt msg.payload 12 4
  let bytes := Config.csr d.toNat (m.sec.gens + 1)
  { absent := m.slotAbsent w
    down := m.slotDown w
    role := m.needsOfficer
    param := firstBad [(slotBad w || slotNo w != 2, 0)]
    state := m.coreDead || (m.side d).core.error
    refuse := if len < 512 then some (stOutFull, 512) else if (hostBuf msg 4).isNone then some (stHostFault, 0) else none
    reply := leBytes 4 bytes.length
    act := fun t =>
      ((t.modSec (fun x => { x with gens := x.gens + 1 })).modCore d (fun c => { c with pending := some (m.sec.gens + 1) })).emit
        (.hostWrite msg.side (numAt msg.payload 4 8) bytes) }

/-- SEC_CSR: R216, R629. -/
def execSecCsr (msg : Msg) (s : State) : Host.Outcome State Fault Refusal :=
  onM (fun m => m.runCmd { opcode := 0x0B03, lenMin := 20, lenMax := 20, states := inC } msg (planSecCsr msg)) s

/-- Whether a buffer may be loaded into a slot (R630). -/
def Mach.certFits (m : Mach) (w : Nat) (bs : List Byte) : Bool :=
  let d := (slotSide w).getD m.token
  let point := (ecPoint bs).isSome
  if slotNo w = 2 then
    match (m.side d).core.pending with
    | none => false
    | some g => decide (bs.length ≤ 2048) && certKey bs == some (Config.pubKey d.toNat 2 g)
  else if slotNo w = 3 ∨ slotNo w = 5 then bs.isEmpty || point
  else if slotNo w = 4 then point
  else false

/-- A load into a slot (R624, R630). Taking ownership clears TAMPERED (R647). -/
def Mach.loadSlot (m : Mach) (w : Nat) (bs : List Byte) : Mach :=
  let d := (slotSide w).getD m.token
  if slotNo w = 2 then
    (m.modCore d (fun c => { c with gen := c.pending.getD c.gen, certified := true, pending := none })).keyChange (sideCode d)
  else if slotNo w = 3 then (m.modSec (fun x => { x with trust := bs })).keyChange 0
  else if slotNo w = 5 then (m.modSec (fun x => { x with cosign := bs })).keyChange 0
  else
    let m1 := if m.sec.owner.isEmpty then m.onSides Mach.fitted (fun e t => t.put e 0xFE0004 31 1 0) else m
    (m1.modSec (fun x => { x with owner := bs })).keyChange 0

/-- SEC_CERT_LOAD: R624, R630. -/
def planSecCertLoad (msg : Msg) (m : Mach) : Plan :=
  let w := numAt msg.payload 0 4
  let bs := (hostBuf msg 4).getD []
  { absent := m.slotAbsent w
    down := m.slotDown w
    role := if slotNo w = 4 ∧ m.sec.owner.isEmpty then none else m.needsOfficer
    param := firstBad [(slotBad w || slotNo w < 2, 0), ((hostBuf msg 4).isSome && !m.certFits w bs, 4)]
    state := m.coreDead
    refuse := if (hostBuf msg 4).isNone then some (stHostFault, 0) else none
    act := fun t => t.loadSlot w bs }

/-- SEC_CERT_LOAD: R216, R630. -/
def execSecCertLoad (msg : Msg) (s : State) : Host.Outcome State Fault Refusal :=
  onM (fun m => m.runCmd { opcode := 0x0B04, lenMin := 20, lenMax := 20, states := inC } msg (planSecCertLoad msg)) s

/-- SEC_PUBKEY_READ: R626. -/
def planSecPubkeyRead (msg : Msg) (m : Mach) : Plan :=
  let w := numAt msg.payload 0 4
  { absent := m.slotAbsent w
    down := m.slotDown w
    param := firstBad [(slotBad w, 0)]
    state := m.coreDead
    refuse := if (m.slotKey w).isNone then some (stNotFound, 0) else none
    reply := bytesAt ((m.slotKey w).getD []) 0 65 }

/-- SEC_PUBKEY_READ: R216, R626. -/
def execSecPubkeyRead (msg : Msg) (s : State) : Host.Outcome State Fault Refusal :=
  onM (fun m => m.runCmd { opcode := 0x0B05, lenMin := 4, lenMax := 4, states := inCAPDF } msg (planSecPubkeyRead msg)) s

/-! ### Self-test, zeroisation and tamper (R643 to R647) -/

/-- SEC_SELF_TEST: R643, R644. `failed` is the number of the test that fails, 0 when all pass. -/
def planSecSelfTest (failed : Nat) (m : Mach) : Plan :=
  { state := m.coreDead
    reply := leBytes 4 failed
    after := fun t => if failed = 0 then t else (t.coreError t.token failed).selfFault t.token 8 }

/-- SEC_SELF_TEST: R216, R643. -/
def execSecSelfTest (msg : Msg) (failed : Nat) (s : State) : Host.Outcome State Fault Refusal :=
  onM (fun m => m.runCmd { opcode := 0x0B08, lenMin := 0, lenMax := 0, states := inC } msg (planSecSelfTest failed)) s

/-- Zeroisation of a side's core (R625, R646): IDENTITY and a pending pair are gone, and a new RECORD_SIGN pair is made that nobody has
certified. -/
def Mach.zeroiseCore (m : Mach) (d : SideId) : Mach :=
  let g := m.sec.gens + 1
  let m1 := (m.modSec (fun x => { x with gens := g })).modCore d (fun c => { c with
    gen := g, certified := false, pending := none, identity := false })
  m1.keyChange (sideCode d)

/-- Zeroisation of the module slots (R625, R646): TOKEN_TRUST takes its default, and the module is unowned. -/
def Mach.zeroiseModule (m : Mach) : Mach :=
  m.modSec (fun x => { x with trust := [], owner := [], cosign := [], held := false, challenge := none })

/-- Zeroisation completes (R649). -/
def Mach.zeroised (m : Mach) : Mach := (m.raise 122).logM 0x0F noInst 0x0708 3 []

/-- SEC_ZEROISE: R646. It acts on every fitted side. -/
def planSecZeroise (m : Mach) : Plan :=
  { role := m.needsOfficer
    state := m.coreDead
    act := fun t => (t.onSides Mach.fitted (fun d u => u.zeroiseCore d)).zeroiseModule.zeroised }

/-- SEC_ZEROISE: R216, R646. -/
def execSecZeroise (msg : Msg) (s : State) : Host.Outcome State Fault Refusal :=
  onM (fun m => m.runCmd { opcode := 0x0B07, lenMin := 0, lenMax := 0, states := inCF } msg planSecZeroise) s

/-- The bit of SEC_TAMPER for a cause (R647). -/
def tamperBit : TamperCause → Nat
  | .mesh => 30
  | .temperature => 29
  | .supply => 28
  | .clock => 27

/-- SEC_TAMPER latches a detection. -/
def Mach.latchTamper (m : Mach) (d : SideId) (c : TamperCause) : Mach :=
  let n := satAt 0xFFFF (m.get d 0xFE0004 0 16 + 1)
  m.wr d 0xFE0004 (BitVec.ofNat 32 (2 ^ 31 + 2 ^ tamperBit c + n))

/-- The side fault of a core in its error state, counted before the side restarts (R589, R645). -/
def Mach.tamperFault (m : Mach) (d : SideId) : Mach :=
  let m1 := m.coreError d (m.get d 0xFE0000 8 8)
  if m1.inService d then
    ((m1.countFault 0x18 (sideCode d) 0).1.logFor d 0x0F noInst 0x060B 3 [8] 0x18).modSide d (fun x => { x with faultN := true })
  else m1

/-- TAMPER: R645 to R647. It acts while the always-on domain is powered; the module slots, which hold the same on both sides, are
zeroised with the side's. -/
def execTamper (d : SideId) (cause : TamperCause) (s : State) : Host.Outcome State Fault Refusal :=
  onToken (fun m =>
    if !m.fitted d || !m.power.alwaysOn then m
    else
      let m1 := ((m.latchTamper d cause).raiseOn d 121).logFor d 0x0F noInst 0x0702 3 [(tamperBit cause : Int)]
      let m2 := (m1.zeroiseCore d).zeroiseModule
      let m3 := (m2.raiseOn d 122).logFor d 0x0F noInst 0x0708 3 []
      (m3.tamperFault d).restartSide d 9) s

/-! ### Consumable tokens (R637 to R642) -/

/-- SEC_TOKEN_READ: R642. -/
def planSecTokenRead (msg : Msg) (m : Mach) : Plan :=
  let i := numAt msg.payload 0 4
  let x := m.tokenOf i
  { absent := decide (4 * stationsOf m.part ≤ i ∧ i < 24)
    param := firstBad [(decide (23 < i), 0)]
    state := m.coreDead
    reply := leBytes 1 x.state ++ leBytes 1 x.cert.type ++ leBytes 1 x.cert.stations ++ leBytes 1 0 ++ leBytes 4 x.count ++
      leBytes 8 x.cert.serial }

/-- SEC_TOKEN_READ: R216, R642. -/
def execSecTokenRead (msg : Msg) (s : State) : Host.Outcome State Fault Refusal :=
  onM (fun m => m.runCmd { opcode := 0x0B06, lenMin := 4, lenMax := 4, states := inCAPDF } msg (planSecTokenRead msg)) s

/-- The stations that a token names (R638): every one for a fuser unit. -/
def TokenCert.names (c : TokenCert) (s : Nat) : Bool := c.type = 4 || hasBit c.stations s

/-- The stations that a token names, as a mask. -/
def TokenCert.mask (c : TokenCert) : Nat := ((List.range 6).filter (TokenCert.names c)).foldl setBitN 0

/-- Whether a station is inhibited by a failed token (R641). -/
def Mach.tokenBars (m : Mach) (s : Nat) : Bool := m.tokens.any (fun e => e.2.failed && hasBit e.2.barred s)

/-- The consumable inhibits follow the failed tokens (R617, R641). -/
def Mach.tokenInhibits (m : Mach) : Mach :=
  (List.range (stationsOf m.part)).foldl (fun t s =>
    let on := t.tokenBars s
    if t.bitA 0x10100 (8 + s) = on then t
    else
      let t1 := (t.setB 0x10100 (8 + s) on).setB 0x10100 (24 + s) true
      if on then t1.imagingMark s 0x0F 0x0707 else t1) m

/-- A token takes a state (R641, R642): one that leaves OK fails and inhibits the stations it names, and one that is OK again ends its
inhibit. Absence by itself is no failure. -/
def Mach.tokenState (m : Mach) (i st : Nat) : Mach :=
  let x := m.tokenOf i
  let fails := x.state == 1 && st != 1 && st != 0
  let m1 := m.modToken i (fun y => { y with
    state := st, failed := st != 1 && (y.failed || fails)
    barred := if st = 1 then 0 else if fails then y.barred ||| TokenCert.mask y.cert else y.barred })
  if fails && !x.failed then ((m1.tokenInhibits).raise 125).logM 0x0F i 0x0707 2 [(st : Int)]
  else if x.failed && st == 1 then
    let m2 := m1.tokenInhibits
    if (List.range (stationsOf m.part)).any (fun s => m.bitA 0x10100 (8 + s) && !m2.bitA 0x10100 (8 + s)) then
      (m2.raise 125).logM 0x0F i 0x070B 0 []
    else m2
  else m1

/-- A verified COUNT below INITIAL ÷ 20 is reported once (R640). -/
def Mach.tokenLow (m : Mach) (i : Nat) : Mach :=
  let x := m.tokenOf i
  if 20 * x.count < x.cert.initial && !x.low then
    ((m.modToken i (fun y => { y with low := true })).raise 126).logM 0x0F i 0x070C 1 [(x.count : Int)]
  else m

/-- The state that an authentication finds (R639, R642). -/
def authState (i : Nat) (c : TokenCert) (trusted : Bool) (count : Nat) (signed : Bool) : Nat :=
  if !trusted then 2
  else if c.type = 0 ∨ 4 < c.type ∨ !hasBit c.stations (i / 4) then 5
  else if !signed then 3
  else if count = 0 then 4
  else 1

/-- No token answers at a place (R641, R642). -/
def Mach.tokenGone (m : Mach) (i : Nat) : Mach :=
  let x := m.tokenOf i
  let m1 := m.modToken i (fun y => { y with asked := none, query := false, retries := 0 })
  if x.state = 0 ∨ x.state = 7 then m1
  else m1.tokenState i (if x.armed && engLive m.eng then 7 else 0)

/-- What a token's answer does (R637 to R641). A token of another serial starts with no lines. -/
def Mach.tokenAnswer (m : Mach) (i : Nat) : TokenAnswer → Mach
  | .absent => m.tokenGone i
  | .authenticated c trusted count signed =>
    let m1 := m.modToken i (fun y =>
      let same := y.cert.serial == c.serial
      { y with
        cert := c, barred := if y.failed then y.barred else y.barred ||| TokenCert.mask y.cert
        count := if trusted && signed then count else y.count, lines := if same then y.lines else 0
        low := same && y.low, query := false, retries := 0 })
    let st := authState i c trusted count signed
    let m2 := m1.tokenState i st
    if st = 1 ∨ st = 4 then m2.tokenLow i else m2
  | .decremented count signed =>
    let x := m.tokenOf i
    match x.asked with
    | none => m
    | some a =>
      let m1 := m.modToken i (fun y => { y with asked := none, retries := 0 })
      if !signed || count + a != x.count then m1.tokenState i 3
      else
        let m2 := m1.modToken i (fun y => { y with count := count, lines := y.lines - a * y.cert.unitLines })
        (if count = 0 then m2.tokenState i 4 else m2).tokenLow i

/-- TOKEN_ANSWER: R637 to R641. -/
def execTokenAnswer (index : Nat) (answer : TokenAnswer) (s : State) : Host.Outcome State Fault Refusal :=
  onM (fun m => if index < 4 * stationsOf m.part && m.inService m.token then m.tokenAnswer index answer else m) s

/-- TOKEN_BUS_ERROR: R640. -/
def execTokenBusError (index : Nat) (s : State) : Host.Outcome State Fault Refusal :=
  onM (fun m =>
    let x := m.tokenOf index
    if 4 * stationsOf m.part ≤ index || !(x.query || x.asked.isSome) then m
    else if x.retries < 3 then (m.modToken index (fun y => { y with retries := y.retries + 1 })).repeatToken index
    else (m.modToken index (fun y => { y with asked := none, query := false, retries := 0 })).tokenState index 6) s

/-- TOKEN_AUTH_TIMER: R639. -/
def execTokenAuthTimer (s : State) : Host.Outcome State Fault Refusal :=
  onM (fun m => if engLive m.eng then (List.range (stationsOf m.part)).foldl Mach.askStation m else m) s

/-- TOKEN_POLL: R639. Bit i of `present` says that a token answers at place i; one that is newly found is authenticated. -/
def execTokenPoll (present : Nat) (s : State) : Host.Outcome State Fault Refusal :=
  onM (fun m =>
    if m.seqState != 2 || !m.inService m.token then m
    else
      (List.range (4 * stationsOf m.part)).foldl (fun t i =>
        let x := t.tokenOf i
        if hasBit present i then (if (x.state = 0 ∨ x.state = 7) && !x.query then t.askToken i else t)
        else if x.state = 0 && !x.query then t
        else t.tokenGone i) m) s

end Sys2Proof.Machine
end

