-- ==== Sys2Proof/Machine/Firmware.lean ====
section
/-!
DEFINITION. The firmware update group (R218, R633 to R636): writing, verifying and activating the bank that a side does not run.
-/

namespace Sys2Proof.Machine

/-! ### Banks -/

/-- Sides on which the firmware update group acts (R136, R636): those in service, and one in recovery. -/
def Mach.fwSide (m : Mach) (d : SideId) : Bool := m.inService d || (m.fitted d && m.mgt d 21)

/-- The bank that a side does not run. -/
def Mach.fwSpare (m : Mach) (d : SideId) : Nat := 1 - m.runs d

/-- Change a bank of a side. -/
def Mach.modBank (m : Mach) (d : SideId) (b : Nat) (f : FwBank → FwBank) : Mach :=
  m.modSide d (fun x => if b = 0 then { x with bankA := f x.bankA } else { x with bankB := f x.bankB })

/-- Change a side's boot record. -/
def Mach.modBoot (m : Mach) (d : SideId) (f : BootRec → BootRec) : Mach := m.modSide d (fun x => { x with boot := f x.boot })

/-- The GOOD flag of a bank. -/
def BootRec.good (b : BootRec) (bank : Nat) : Bool := if bank = 0 then b.goodA else b.goodB

/-- Change the GOOD flag of a bank. -/
def BootRec.setGood (b : BootRec) (bank : Nat) (v : Bool) : BootRec := if bank = 0 then { b with goodA := v } else { b with goodB := v }

/-- Whether a bank has passed FW_VERIFY since its last FW_DATA. -/
def BootRec.ver (b : BootRec) (bank : Nat) : Bool := if bank = 0 then b.verA else b.verB

/-- Set or clear that a bank has passed FW_VERIFY. -/
def BootRec.setVer (b : BootRec) (bank : Nat) (v : Bool) : BootRec := if bank = 0 then { b with verA := v } else { b with verB := v }

/-- Whether the cores that must verify an image serve nothing (R622, R644). -/
def Mach.fwDead (m : Mach) : Bool := [SideId.a, .b].any (fun d => m.fwSide d && (m.side d).core.error)

/-! ### Writing (R218) -/

/-- FW_BEGIN: R218, R633. -/
def planFwBegin (msg : Msg) (_m : Mach) : Plan :=
  let len := numAt msg.payload 0 4
  { param := firstBad [(decide (len < 1024 ∨ 268435456 < len), 0)]
    act := fun t => t.onSides Mach.fwSide (fun d u =>
      let b := u.fwSpare d
      (u.modBank d b (fun _ => { touched := true, len := len, cells := [] })).modBoot d (fun r =>
        (r.setGood b false).setVer b false)) }

/-- FW_BEGIN: R218. -/
def execFwBegin (msg : Msg) (s : State) : Host.Outcome State Fault Refusal :=
  onM (fun m => m.runCmd { opcode := 0x0D01, lenMin := 8, lenMax := 8, states := inCAPDF, managed := true } msg (planFwBegin msg)) s

/-- Bytes written at an offset of a bank. -/
def putCells : Tab Byte → Nat → List Byte → Tab Byte
  | t, _, [] => t
  | t, a, b :: bs => putCells (tabPut t a b) (a + 1) bs

/-- FW_DATA: R218. Nothing is accepted before an FW_BEGIN, or beyond the length it announced. -/
def planFwData (msg : Msg) (m : Mach) : Plan :=
  let off := numAt msg.payload 0 8
  let data := msg.payload.drop 8
  let bank (d : SideId) : FwBank := (m.side d).bank (m.fwSpare d)
  { param := firstBad [([SideId.a, .b].any (fun d => m.fwSide d && (bank d).touched && decide ((bank d).len < off + data.length)), 0)]
    state := [SideId.a, .b].any (fun d => m.fwSide d && !(bank d).touched)
    act := fun t => t.onSides Mach.fwSide (fun d u =>
      (u.modBank d (u.fwSpare d) (fun b => { b with cells := putCells b.cells off data })).modBoot d (fun r =>
        r.setVer (u.fwSpare d) false)) }

/-- FW_DATA: R218. -/
def execFwData (msg : Msg) (s : State) : Host.Outcome State Fault Refusal :=
  onM (fun m => m.runCmd { opcode := 0x0D02, lenMin := 9, lenMax := 8176, states := inCAPDF, managed := true } msg (planFwData msg)) s

/-! ### Verifying (R633, R634) -/

/-- Bytes of a bank; an unwritten byte of flash reads 0xFF. -/
def FwBank.bytes (b : FwBank) (off len : Nat) : List Byte := (List.range len).map (fun i => tabGet 0xFF b.cells (off + i))

/-- A field of the image header. -/
def FwBank.num (b : FwBank) (off len : Nat) : Nat := leNat (b.bytes off len)

/-- Whether bytes of a bank are all 0. -/
def FwBank.zero (b : FwBank) (off len : Nat) : Bool := (b.bytes off len).all (fun x => x == 0)

/-- The components of an image: TYPE, OFFSET and LENGTH. -/
def FwBank.parts (b : FwBank) : List (Nat × Nat × Nat) :=
  (List.range (min 16 (b.num 24 2))).map (fun i => (b.num (64 + 48 * i) 1, b.num (68 + 48 * i) 4, b.num (72 + 48 * i) 4))

/-- Whether component ranges lie behind the header, inside the image and apart. -/
def rangesOk (len : Nat) : List (Nat × Nat × Nat) → Bool
  | [] => true
  | c :: cs =>
    decide (1024 ≤ c.2.1 ∧ c.2.1 + c.2.2 ≤ len) && cs.all (fun e => decide (c.2.1 + c.2.2 ≤ e.2.1 ∨ e.2.1 + e.2.2 ≤ c.2.1)) &&
      rangesOk len cs

/-- Whether each component type appears as R633 has it: once, but 0x05 need not in an image for the W7-S alone. -/
def typesOk (parts : Nat) (cs : List (Nat × Nat × Nat)) : Bool :=
  let times (t : Nat) : Nat := (cs.filter (fun c => c.1 == t)).length
  cs.all (fun c => decide (1 ≤ c.1 ∧ c.1 ≤ 6)) && [1, 2, 3, 4, 6].all (fun t => times t == 1) &&
    (if parts = 4 then decide (times 5 ≤ 1) else times 5 == 1)

/-- The reserved bytes of a header: its own, those of each component, and the entries not used. -/
def FwBank.reservedOk (b : FwBank) : Bool :=
  let n := min 16 (b.num 24 2)
  b.zero 26 6 && b.zero 32 32 && b.zero 960 64 &&
    (List.range 16).all (fun i => if i < n then b.zero (65 + 48 * i) 3 && b.zero (76 + 48 * i) 4 else b.zero (64 + 48 * i) 48)

/-- Check 1: the form of the image. -/
def FwBank.formOk (b : FwBank) : Bool :=
  let len := b.num 20 4
  let n := b.num 24 2
  b.num 0 4 == 0x4D495746 && b.num 4 2 == 1 && b.reservedOk && decide (b.num 12 4 ≤ 63) && decide (b.num 16 4 < 8) &&
    len == b.cells.length && decide (1024 ≤ len ∧ len ≤ 268435456) && decide (1 ≤ n ∧ n ≤ 16) && rangesOk len b.parts &&
    typesOk (b.num 16 4) b.parts

/-- The bit of PARTS for a part. -/
def partBit : Part → Nat
  | .w9d => 0
  | .w9s => 1
  | .w7s => 2

/-- Check 6: every component's digest. -/
def FwBank.digestsOk (b : FwBank) : Bool :=
  (List.range (min 16 (b.num 24 2))).all (fun i =>
    sha256 (b.bytes (b.num (68 + 48 * i) 4) (b.num (72 + 48 * i) 4)) == b.bytes (80 + 48 * i) 32)

/-- The first check of R634 that a written bank fails. -/
def Mach.fwCheck (m : Mach) (d : SideId) (b : FwBank) : Option Nat :=
  if !b.formOk then some 1
  else if !hasBit (b.num 16 4) (partBit m.part) then some 2
  else if b.num 12 4 < m.get d 0xFE0008 26 6 then some 3
  else if !ecdsaOk rootKey (b.bytes 0 832) (b.bytes 832 64) then some 4
  else if !m.sec.cosign.isEmpty && !ecdsaOk m.sec.cosign (b.bytes 0 832) (b.bytes 896 64) then some 5
  else if !b.digestsOk then some 6
  else none

/-- The outcome of verifying the spare bank of a side. Of a bank as delivered the spec gives no contents: one that is not good passes when it
was delivered verified, and the check it fails otherwise is a free value. -/
def Mach.fwVerdict (m : Mach) (d : SideId) : Option Nat :=
  let k := m.fwSpare d
  let b := (m.side d).bank k
  if b.touched then m.fwCheck d b
  else if (m.side d).boot.good k || 2 ≤ Config.fwDelivered d.toNat k 3 then none
  else some (Config.freeNat m.fresh d.toNat % 6 + 1)

/-- FW_VERIFY on one side: a bank that fails is logged with the number of the check (R634, R649). -/
def Mach.fwVerifyOn (m : Mach) (d : SideId) (v : Option Nat) : Mach :=
  match v with
  | none => m.modBoot d (fun r => r.setVer (m.fwSpare d) true)
  | some k => ((m.modBoot d (fun r => r.setVer (m.fwSpare d) false)).raiseOn d 127).logFor d 0x0F noInst 0x0703 2 [(k : Int)]

/-- FW_VERIFY: R634, R636. -/
def planFwVerify (m : Mach) : Plan :=
  let ok := [SideId.a, .b].all (fun d => !m.fwSide d || (m.fwVerdict d).isNone)
  { state := m.fwDead
    status := if ok then stOk else stVerifyFailed
    act := fun t => t.onSides Mach.fwSide (fun d u => u.fwVerifyOn d (m.fwVerdict d)) }

/-- FW_VERIFY: R218. -/
def execFwVerify (msg : Msg) (s : State) : Host.Outcome State Fault Refusal :=
  onM (fun m => m.runCmd { opcode := 0x0D03, lenMin := 0, lenMax := 0, states := inCAPDF, managed := true } msg planFwVerify) s

/-! ### Activating (R635) -/

/-- FW_ACTIVATE on one side: PREFERRED is the verified bank, on trial. -/
def Mach.fwActivateOn (m : Mach) (d : SideId) : Mach :=
  let b := m.fwSpare d
  m.modBoot d (fun r => { r.setGood b false with preferB := b == 1, trial := true, tried := false })

/-- FW_ACTIVATE: R635. -/
def planFwActivate (msg : Msg) (m : Mach) : Plan :=
  let w := numAt msg.payload 0 4
  { param := firstBad [(decide (2 ≤ w), 0)]
    state := m.fwDead || [SideId.a, .b].any (fun d => m.fwSide d && !(m.side d).boot.ver (m.fwSpare d))
    act := fun t => t.onSides Mach.fwSide (fun d u => u.fwActivateOn d)
    after := fun t => if w = 1 && t.power.phase == .running then t.restartModule 7 else t }

/-- FW_ACTIVATE: R218, R635. -/
def execFwActivate (msg : Msg) (s : State) : Host.Outcome State Fault Refusal :=
  onToken (fun m => m.runCmd { opcode := 0x0D04, lenMin := 4, lenMax := 4, states := inCF, managed := true } msg (planFwActivate msg)) s

/-- The state of a bank (R636): 0 empty, 1 written, 2 verified, 3 good. -/
def Mach.fwState (m : Mach) (d : SideId) (k : Nat) : Nat :=
  let x := m.side d
  let b := x.bank k
  if x.boot.good k then 3
  else if !b.touched then Config.fwDelivered d.toNat k 3
  else if b.cells.isEmpty then 0
  else if x.boot.ver k then 2
  else 1

/-- The 8 bytes of a bank in FW_READ_STAT (R636). -/
def Mach.fwStat (m : Mach) (d : SideId) (k : Nat) : List Byte :=
  let b := (m.side d).boot
  let pref := k == b.preferred
  let flags := b2n pref + 2 * b2n (pref && b.trial) + 4 * b2n (pref && m.mgt d 23 && k == m.runs d) + 8 * b2n (pref && b.tried)
  leBytes 1 (m.fwState d k) ++ leBytes 1 flags ++ leBytes 2 (m.fwRelease d k) ++ leBytes 4 (m.fwField d k 1)

/-- FW_READ_STAT: R636. In recovery the side that received the command answers for itself. -/
def planFwReadStat (msg : Msg) (m : Mach) : Plan :=
  let d := if m.mgt msg.side 21 then msg.side else m.token
  { reply := m.fwStat d 0 ++ m.fwStat d 1 }

/-- FW_READ_STAT: R218, R636. -/
def execFwReadStat (msg : Msg) (s : State) : Host.Outcome State Fault Refusal :=
  onM (fun m => m.runCmd { opcode := 0x0D05, lenMin := 0, lenMax := 0, states := inCAPDF, managed := true } msg (planFwReadStat msg)) s

end Sys2Proof.Machine
end

