-- ==== Sys2Proof/Machine/RailCmds.lean ====
section
/-!
DEFINITION. The power and rails group (R203): rail and step programming, power-up and power-down by command, the saved values, reset
pulses, the sleep timers (R564) and the performance cap (R559).
-/

namespace Sys2Proof.Machine

/-- The range and the resolution of a rail's set-point in millivolts (R90). -/
def setpointRange (r : Nat) : Nat × Nat × Nat :=
  if r % 4 = 0 then (4750, 5250, 10)
  else if r % 4 = 1 then (3135, 3465, 10)
  else if r % 4 = 2 then (1800, 12000, 10)
  else (5000, 24000, 100)

/-- Whether a set-point lies outside a rail's range. -/
def setpointBad (r mv : Nat) : Bool := decide (mv < (setpointRange r).1 ∨ (setpointRange r).2.1 < mv)

/-- The set-point in force (R90): the multiple of the resolution at or below it, but none below the range. -/
def setpointOf (r mv : Nat) : Nat :=
  let res := (setpointRange r).2.2
  let q := mv / res * res
  if q < (setpointRange r).1 then roundUp res (setpointRange r).1 else q

/-- Hold a rail's configuration word with its set-point rounded. -/
def Mach.setRailCfg (m : Mach) (r : Nat) (w : Word) : Mach :=
  m.wr .a (0x40200 + 4 * r) (putField w 16 16 (setpointOf r (fieldOf w 16 16)))

/-- RAIL_CONFIG: R90, R97, R203. -/
def planRailConfig (msg : Msg) (m : Mach) : Plan :=
  let r := numAt msg.payload 0 4
  let w := wordAt msg.payload 4
  { absent := decide (railsOf m.part ≤ r ∧ r ≤ 23)
    param := firstBad [(decide (23 < r), 0), (fieldOf w 0 (if r % 4 = 0 then 3 else 4) != 0 || setpointBad r (fieldOf w 16 16), 4)]
    state := m.seqState != 0
    act := fun t => t.setRailCfg r w }

/-- RAIL_CONFIG: R203. -/
def execRailConfig (msg : Msg) (s : State) : Host.Outcome State Fault Refusal :=
  onM (fun m => m.runCmd { opcode := 0x0201, lenMin := 8, lenMax := 8, states := inCF } msg (planRailConfig msg)) s

/-- SEQ_PROGRAM: R95, R96, R203. -/
def planSeqProgram (msg : Msg) (m : Mach) : Plan :=
  let p := msg.payload
  let ks := List.range 16
  { absent := ks.any (fun k => (bitsOf (numAt p (4 + 8 * k) 3) 24).any (fun r => decide (railsOf m.part ≤ r)))
    param := firstBad ((decide (15 < numAt p 0 4), 0) :: ks.map (fun k => (numAt p (7 + 8 * k) 1 != 0, 4 + 8 * k)))
    state := m.seqState != 0
    act := fun t =>
      let t1 := t.put .a 0x40000 24 4 (numAt p 0 4)
      ks.foldl (fun u k => (u.wr .a (0x40100 + 4 * k) (wordAt p (4 + 8 * k))).wr .a (0x40140 + 4 * k) (wordAt p (8 + 8 * k))) t1 }

/-- SEQ_PROGRAM: R203. -/
def execSeqProgram (msg : Msg) (s : State) : Host.Outcome State Fault Refusal :=
  onM (fun m => m.runCmd { opcode := 0x0202, lenMin := 132, lenMax := 132, states := inCF } msg (planSeqProgram msg)) s

/-- SEQ_UP: R105, R125, R203. -/
def planSeqUp (m : Mach) : Plan :=
  { state := m.seqState == 4 || (m.isMaster && bitOf (m.rd .a 0x40024) 14)
    later := if m.seqState = 2 then none else some .seqUp
    act := fun t => t.askUp }

/-- SEQ_UP: R203. -/
def execSeqUp (msg : Msg) (s : State) : Host.Outcome State Fault Refusal :=
  onM (fun m => m.runCmd { opcode := 0x0203, lenMin := 0, lenMax := 0, states := inCF } msg planSeqUp) s

/-- SEQ_DOWN: R105, R203. In RELEASED it has no effect and is answered once STATE is OFF. -/
def planSeqDown (m : Mach) : Plan :=
  { later := if m.seqState = 0 then none else some .seqDown
    act := fun t => t.askDown }

/-- SEQ_DOWN: R203. -/
def execSeqDown (msg : Msg) (s : State) : Host.Outcome State Fault Refusal :=
  onM (fun m => m.runCmd { opcode := 0x0204, lenMin := 0, lenMax := 0, states := inCF } msg planSeqDown) s

/-- SEQ_READ: R203. -/
def planSeqRead (m : Mach) : Plan :=
  { reply := (m.rd .a seqStat :: (List.range 24).map m.measNow).flatMap wordBytes }

/-- SEQ_READ: R203. -/
def execSeqRead (msg : Msg) (s : State) : Host.Outcome State Fault Refusal :=
  onM (fun m => m.runCmd { opcode := 0x0205, lenMin := 0, lenMax := 0, states := inCAPDF, managed := true } msg planSeqRead) s

/-- SEQ_PERSIST: R203. MRAM takes the three values; the registers take them at the next power-up of the always-on domain (R669). -/
def planSeqPersist (msg : Msg) (_m : Mach) : Plan :=
  let w := wordAt msg.payload 0
  { param := firstBad [(fieldOf w 1 7 != 0, 0)]
    act := fun t => t.modSeq (fun q => { q with saved := w }) }

/-- SEQ_PERSIST: R203. -/
def execSeqPersist (msg : Msg) (s : State) : Host.Outcome State Fault Refusal :=
  onM (fun m => m.runCmd { opcode := 0x0206, lenMin := 4, lenMax := 4, states := inC } msg (planSeqPersist msg)) s

/-- RESET_PULSE: R115, R203. -/
def planResetPulse (msg : Msg) (_m : Mach) : Plan :=
  let w := numAt msg.payload 0 4
  { param := firstBad [(decide (4 ≤ w), 0)]
    act := fun t =>
      let t1 := if hasBit w 0 then t.pulseHead else t
      if hasBit w 1 then t1.pulseHost else t1 }

/-- RESET_PULSE: R203. -/
def execResetPulse (msg : Msg) (s : State) : Host.Outcome State Fault Refusal :=
  onM (fun m => m.runCmd { opcode := 0x0207, lenMin := 4, lenMax := 4, states := inCF } msg (planResetPulse msg)) s

/-- Whether a timer value that is not 0 lies outside its range (R564). -/
def timerBad (lo hi v : Nat) : Bool := decide (v ≠ 0 ∧ (v < lo ∨ hi < v))

/-- PWR_TIMERS: R564, R575. The timers that are not 0 rise from IDLE to DOZE to HIBERNATE; MRAM of every fitted side takes them. -/
def planPwrTimers (msg : Msg) (_m : Mach) : Plan :=
  let i := numAt msg.payload 0 4
  let d := numAt msg.payload 4 4
  let h := numAt msg.payload 8 4
  { param := firstBad [(timerBad 1 60000 i, 0), (timerBad 1000 86400000 d || decide (d ≠ 0 ∧ d ≤ i), 4),
      (timerBad 60000 604800000 h || decide (h ≠ 0 ∧ (h ≤ d ∨ h ≤ i)), 8)]
    act := fun t => t.onSides Mach.fitted (fun x u =>
      ((u.wr x 0x20010 (BitVec.ofNat 32 i)).wr x 0x20014 (BitVec.ofNat 32 d)).wr x 0x20018 (BitVec.ofNat 32 h)) }

/-- PWR_TIMERS: R564. -/
def execPwrTimers (msg : Msg) (s : State) : Host.Outcome State Fault Refusal :=
  onM (fun m => m.runCmd { opcode := 0x0208, lenMin := 12, lenMax := 12, states := inCAPDF } msg (planPwrTimers msg)) s

/-- PERF_CAP: R559. -/
def planPerfCap (msg : Msg) (_m : Mach) : Plan :=
  let v := numAt msg.payload 0 4
  { param := firstBad [(decide (3 < v), 0)]
    act := fun t => (t.putB 0x20000 30 2 v).perfFollow }

/-- PERF_CAP: R559. -/
def execPerfCap (msg : Msg) (s : State) : Host.Outcome State Fault Refusal :=
  onM (fun m => m.runCmd { opcode := 0x0209, lenMin := 4, lenMax := 4, states := inCAPDF } msg (planPerfCap msg)) s

end Sys2Proof.Machine
end

