-- ==== Sys2Proof/Machine/HostLink.lean ====
section
/-!
DEFINITION. The host link (R128 to R135, R161 to R173): endpoint resets, link power, register writes under their access codes (R14), the
event router's registers, MSI-X, and the status snapshot.
-/

namespace Sys2Proof.Machine

/-! ### The identity of the function (R128, R133) -/

/-- What the PCI Express function of a side presents (R128), the same on every part: its identity, what it supports, and the exit
latencies it advertises in µs (R133). -/
structure PcieFunction where
  vendorId     : Nat
  deviceId     : Nat
  classCode    : Nat
  speed        : Nat
  widths       : List Nat
  maxPayload   : Nat
  maxReadReq   : Nat
  tagBits      : Nat
  outstanding  : Nat
  vectors      : Nat
  interruptPin : Nat
  msi          : Bool
  d3hot        : Bool
  noSoftReset  : Bool
  pme          : Bool
  l0s          : Bool
  l1           : Bool
  l1Substates  : Bool
  aer          : Bool
  ltr          : Bool
  flr          : Bool
  serial       : Nat
  sriov        : Bool
  ats          : Bool
  pasid        : Bool
  ptm          : Bool
  resizableBar : Bool
  l1ExitUs     : Nat
  l12ExitUs    : Nat

/-- The function of R128; speed 4 is 16 GT/s, and the Device Serial Number is the module serial. -/
def pcieFunction : PcieFunction :=
  { vendorId := 0x1F3C, deviceId := 0xA900, classCode := 0x118000, speed := 4, widths := [1, 2, 4, 8, 16], maxPayload := 512
    maxReadReq := 4096, tagBits := 10, outstanding := 256, vectors := 32, interruptPin := 0, msi := false, d3hot := true
    noSoftReset := true, pme := false, l0s := false, l1 := true, l1Substates := true, aer := true, ltr := true, flr := true
    serial := Config.moduleSerial, sriov := false, ats := false, pasid := false, ptm := false, resizableBar := false, l1ExitUs := 8
    l12ExitUs := 70 }

/-- The widest link that the mated cables of X5 allow (R50): ×8 on X5.1 alone, none without it. -/
def cableWidth (x51 x52 : Bool) : Nat := if !x51 then 0 else if x52 then 16 else 8

/-! ### Link power and resets (R50, R132, R133, R135) -/

/-- LINK_STAT. -/
def linkStat : Nat := bar4 + 0x4001C

/-- Pending messages that may be sent now are sent, and their PBA bits cleared (R132). -/
def Mach.flushPba (m : Mach) (d : SideId) : Mach :=
  (List.range 32).foldl (fun t v =>
    let s := t.side d
    if bitOf s.msix.pba v && s.mayMsg v then
      (t.setSide d { s with msix := { s.msix with pba := putBit s.msix.pba v false } }).emit (.msix d v)
    else t) m

/-- Every ring of a side is disabled, with its registers kept except RING_HEAD, RING_TAIL and RING_CTL (R135). -/
def Mach.ringsOff (m : Mach) (d : SideId) : Mach :=
  (List.range 64).foldl (fun t n =>
    let t1 := t.disableRing d n
    ((t1.wr d (ringPage n + 0xC) 0).wr d (ringPage n + 0x10) 0).wr d (ringPage n + 0x14) 0) m

/-- The event router and the MSI-X state after a reset of the endpoint (R135): EVT_STAT and EVT_COUNT are kept. -/
def Side.resetRouter (s : Side) : Side :=
  { s with evt := { Evt.init with pend := s.evt.pend, count := s.evt.count }, msix := Msix.init }

/-- The link is no longer trained. -/
def Mach.linkLost (m : Mach) (d : SideId) : Mach :=
  (m.put d linkStat 22 10 0).modSide d (fun x => { x with linkUp := false, aspm := false })

/-- LINK_RESET: R135, R161. A function level reset leaves the link trained; the other resets also clear the host's ASPM enable
(PRESUMED, log entry on endpoint resets). -/
def execLinkReset (d : SideId) (kind : LinkResetKind) (s : State) : Host.Outcome State Fault Refusal :=
  onM (fun m =>
    if !m.fitted d || (m.side d).st == .down || !(m.side d).endpoint then m
    else
      let m1 := ((m.ringsOff d).put d (bar4 + 0x40018) 31 1 0).modSide d (fun x => { x.resetRouter with d3 := false, l1 := false })
      let m2 := (m1.put d linkStat 8 8 ((m.get d linkStat 8 8 + 1) % 256)).dmaLinkLost d
      match kind with
      | .flr => m2
      | .hot => m2.linkLost d
      | .perst => m2.linkLost d
      | .linkDown => m2.linkLost d) s

/-- PCIE_LINK_TRAINED: R50, R128, R161, R635. The cables are held; the link trains within what they allow. -/
def execPcieLinkTrained (d : SideId) (speed : Nat) (link : LinkWidth) (s : State) : Host.Outcome State Fault Refusal :=
  onM (fun m =>
    let m0 := m.modSide d (fun x => { x with cables := (link.x51, link.x52) })
    if !m.fitted d then m
    else if (m.side d).st != .down && (m.side d).endpoint && decide (1 ≤ speed ∧ speed ≤ pcieFunction.speed) &&
        pcieFunction.widths.contains link.width && decide (link.width ≤ cableWidth link.x51 link.x52) then
      let m1 := (m0.put d linkStat 28 4 speed).put d linkStat 22 6 link.width
      ((m1.modSide d (fun x => { x with linkUp := true, l1 := false })).reportFall d).flushPba d
    else m0) s

/-- D3HOT_ENTRY: R133. -/
def execD3hotEntry (d : SideId) (s : State) : Host.Outcome State Fault Refusal :=
  onM (fun m => if m.fitted d && (m.side d).endpoint then m.modSide d (fun x => { x with d3 := true }) else m) s

/-- D0_RETURN: R133. Messages that were held are sent. -/
def execD0Return (d : SideId) (s : State) : Host.Outcome State Fault Refusal :=
  onM (fun m =>
    if m.fitted d && (m.side d).d3 then (m.modSide d (fun x => { x with d3 := false, l1 := false })).flushPba d else m) s

/-- ASPM_L1_ENTRY: R133. The endpoint enters L1 by itself where the host has enabled it and no job is armed; a downstream request is
honoured in any case. -/
def execAspmL1Entry (entry : L1Entry) (s : State) : Host.Outcome State Fault Refusal :=
  onM (fun m =>
    let d := entry.side
    if m.fitted d && (m.side d).linkUp && (entry.host || (m.side d).aspm && !engLive m.eng) then
      m.modSide d (fun x => { x with l1 := true })
    else m) s

/-! ### Reads that change state (R130, R221, R333, R373) -/

/-- The value that a side shows of a 64-bit register whose low word latches the high one, by the offset of the low word. -/
def Mach.latched (m : Mach) (d : SideId) (off : Nat) : Option Int :=
  let n := (off - 0xD00000) / 0x100
  let c := (off - 0x501000) / 0x20
  let ones : Int := (2 : Int) ^ 64 - 1
  let known (x : Option Nat) : Int := match x with
    | some v => (v : Int)
    | none => ones
  if 0xD00000 ≤ off ∧ off < 0xD00400 then
    let zero := tabGet (0, 0) (m.side d).encZero n
    if off % 0x100 = 0x10 then some ((m.encOf n).count - zero.1)
    else if off % 0x100 = 0x18 then some (m.encPos n - zero.2)
    else none
  else if hasChanter m.part ∧ 0x501000 ≤ off ∧ off < 0x501800 then
    let k := m.counterOf c
    if off % 0x20 = 0 then some (k.next : Int)
    else if off % 0x20 = 8 then some (known k.consumed)
    else if off % 0x20 = 0x10 then some (known k.committed)
    else none
  else none

/-- HIGH_WORD_LATCH: R130, R221, R373. -/
def execHighWordLatch (d : SideId) (off : Nat) (s : State) : Host.Outcome State Fault Refusal :=
  onM (fun m =>
    match if m.bar0On d off then m.latched d off else none with
    | some v => m.modSide d (fun x => { x with latch := tabPut x.latch (off + 4) (BitVec.ofNat 32 (unsignedOf 64 v / 2 ^ 32)) })
    | none => m) s

/-- SREC_DATA_READ: R333. -/
def execSrecDataRead (d : SideId) (s : State) : Host.Outcome State Fault Refusal :=
  onM (fun m =>
    let w := m.get d 0x408000 0 15
    if m.bar0On d 0x408000 then m.put d 0x408000 0 15 (if w = 24079 then 0 else w + 1) else m) s

/-! ### Events (R165 to R171) -/

/-- Every event of a register word's set bits occurs. -/
def Mach.evtSet (m : Mach) (d : SideId) (k : Nat) (w : Word) : Mach :=
  (bitsOf w.toNat 32).foldl (fun t j => t.raiseOn d (32 * k + j)) m

/-- EVT_SET: R167. -/
def execEvtSet (d : SideId) (k : Nat) (mask : Word) (s : State) : Host.Outcome State Fault Refusal :=
  onM (fun m => if m.bar0On d 0x100000 && decide (k < 4) then m.evtSet d k mask else m) s

/-- One word of EVT_MASK takes a value (R166): an event that is unmasked while pending counts once against its vector (R171 rule 4). -/
def Mach.setMask (m : Mach) (d : SideId) (k : Nat) (w : Word) : Mach :=
  let e := (m.side d).evt
  let old : Word := (e.mask >>> (32 * k)).setWidth 32
  let mask := (e.mask &&& ~~~((0xFFFFFFFF : BitVec 128) <<< (32 * k))) ||| ((w.setWidth 128 : BitVec 128) <<< (32 * k))
  let m1 := m.modSide d (fun x => { x with evt := { x.evt with mask := mask } })
  ((bitsOf (old &&& ~~~w).toNat 32).filter (fun j => e.pend.getLsbD (32 * k + j))).foldl (fun t j =>
    t.countVec d (e.routeOf (32 * k + j))) m1

/-- EVT_MASK_CLEAR: R171 rule 4. -/
def execEvtMaskClear (d : SideId) (k : Nat) (cleared : Word) (s : State) : Host.Outcome State Fault Refusal :=
  onM (fun m =>
    if m.bar0On d 0x100000 && decide (k < 4) then
      let old : Word := ((m.side d).evt.mask >>> (32 * k)).setWidth 32
      m.setMask d k (old &&& ~~~cleared)
    else m) s

/-- VECTOR_TIMER: R171 rule 2. -/
def execVectorTimer (d : SideId) (v : Nat) (s : State) : Host.Outcome State Fault Refusal :=
  onM (fun m => if v < 32 && ((m.side d).evt.vecOf v).timing then m.fire d v else m) s

/-- MSIX_UNMASK: R132. -/
def execMsixUnmask (d : SideId) (vector : Nat) (s : State) : Host.Outcome State Fault Refusal :=
  onM (fun m =>
    if m.bar4On d && decide (vector < 32) then
      (m.modSide d (fun x => { x with msix := { x.msix with
        table := tabPut x.msix.table vector { x.msix.entry vector with masked := false } } })).flushPba d
    else m) s

/-! ### Register writes (R14, R82, R130) -/

/-- Whether an offset of a station's PXC block is a register of laser drive or of the fine phase, absent on a W7-S (R410): PXC_Q, PXC_PHI,
PXC_LOOP_TRIM, PXC_TRIM_LIM, PXC_START_RES, PXC_SEG, PXC_FACET_A and B, PXC_BOW and BEAM_DIV. -/
def laserReg (off : Nat) : Bool :=
  let o := (off - 0xC00000) % 0x10000
  decide (0xC00000 ≤ off ∧ off < 0xC60000) &&
    (o == 0x1C || o == 0x20 || o == 0x30 || o == 0x34 || o == 0x38 || decide (0x100 ≤ o ∧ o < 0x320) ||
      (decide (0x1000 ≤ o ∧ o < 0x1220) && o % 0x10 == 8))

/-- Whether an offset of BAR0 belongs to a unit or an instance that the part does not have (R8, R11, R334, R410, R440). -/
def regAbsent (p : Part) (off : Nat) : Bool :=
  let stn (base stride : Nat) (n : Nat) : Bool :=
    decide (base ≤ off ∧ off < base + stride * n) && decide (stationsOf p ≤ (off - base) / stride)
  (p != .w9d && decide (0xFC0000 ≤ off ∧ off < 0xFD0000)) ||
  (p == .w7s && (off == 0x500024 || decide (0x40240 ≤ off ∧ off < 0x40260) || laserReg off)) ||
  stn 0x40300 16 6 || stn 0x401000 0x100 6 || stn 0x600000 0x10000 6 ||
  stn 0xC00000 0x10000 6 || stn 0xD03800 4 6 || stn 0xD03820 4 6 || stn 0xD03910 4 6 || stn 0x30180 4 6 ||
  (decide (0xE00000 ≤ off ∧ off < 0xE03800) && decide (motorsOf p ≤ (off - 0xE00000) / 0x400)) ||
  (decide (0xE80000 ≤ off ∧ off < 0xE80C00) && decide (steppersOf p ≤ (off - 0xE80000) / 0x100)) ||
  (decide (0xF00000 ≤ off ∧ off < 0xF08000) && !loopFitted p ((off - 0xF00000) / 0x80)) ||
  (decide (0xF40000 ≤ off ∧ off < 0xF40680) && decide (hvOf p ≤ (off - 0xF40000) / 0x40)) ||
  (decide (0xF60000 ≤ off ∧ off < 0xF60100) && decide (fusersOf p ≤ (off - 0xF60000) / 0x40))

/-- Whether the unit of an RWL register is stopped (R91, R144, R172). -/
def Mach.unitStopped (m : Mach) (d : SideId) (off : Nat) : Bool :=
  if moduleWide off then m.seqState = 0
  else if off < bar4 + 0x40000 then !m.ringOn d ((off - bar4) / 0x1000)
  else !bitOf (m.rd d (bar4 + 0x40018)) 31

/-- Whether RWL is the only access code of a register's writable bits. -/
def RegRow.onlyRwl (r : RegRow) : Bool := r.rwl != 0 && r.rw ||| r.w1c ||| r.fw == 0

/-- A write is discarded under RWL or by a range check (R14, R97, R163, R164): a ring raises event 52, any other unit event 10 with its
log entry. No chapter gives that entry a CODE, which is free; its UNIT is that of SEQ and its ARG the offset. -/
def Mach.regError (m : Mach) (d : SideId) (off : Nat) : Mach :=
  if bar4 ≤ off ∧ off < bar4 + 0x40000 then m.raiseOn d 52
  else (m.raiseOn d 10).logFor d 0x00 noInst m.openCode 1 [(off : Int)]

/-- A write under the access codes of a register's bits (R14). A field that only firmware may write stays. RWL bits change only while the
unit is stopped; otherwise the write of a register that holds nothing else is an error, and in a register with other writable fields
one that would change an RWL bit is. The word of a power stage is the token holder's (R13). -/
def Mach.writePlain (m : Mach) (d : SideId) (r : RegRow) (off : Nat) (v : Word) : Mach :=
  let e := m.regSide d off
  let old := m.rd e off
  let free := r.rw ||| (if m.droneRules d then r.fw else 0)
  let w1 := (old &&& ~~~free) ||| (v &&& free)
  let w2 := w1 &&& ~~~(r.w1c &&& v)
  let w3 := if v &&& r.clr = 0 then w2 else w2 &&& ~~~r.clr
  let stopped := m.unitStopped d off
  let w4 := if stopped then (w3 &&& ~~~r.rwl) ||| (v &&& r.rwl) else w3
  let m1 := m.wr e off w4
  let m2 := if stageReg off && m.inService e.other then
      let o := m1.rd e.other off
      m1.wr e.other off (o &&& ~~~(r.w1c &&& v))
    else m1
  if !stopped && (r.onlyRwl || (old ^^^ v) &&& r.rwl != 0) then m2.regError d off else m2

/-- THM_CLASS_CFG (R569, R577). -/
def Mach.writeClassCfg (m : Mach) (d : SideId) (c : Nat) (v : Word) : Mach :=
  let top := [125, 90, 75, 155].getD c 0
  let lv (lo : Nat) : Nat := min top (fieldOf v lo 8)
  if lv 16 < lv 24 ∨ lv 8 ≤ lv 16 then m
  else m.wr d (0x30000 + 4 * c) (BitVec.ofNat 32 (lv 24 * 2 ^ 24 + lv 16 * 2 ^ 16 + lv 8 * 2 ^ 8 + max 1 (fieldOf v 4 4) * 16))

/-- DMA_CH_CTL (R302). -/
def writeDmaCtl (d : SideId) (n : Nat) (v : Word) (x : Mem) : Mem :=
  let m1 := x.2.put d (dmaBase n) 31 1 (fieldOf v 31 1)
  let x1 := if bitOf v 30 then dmaDisable d n (x.1, m1) else (x.1, m1)
  if bitOf v 29 then (x1.1, x1.2.dmaResume d n) else x1

/-- The event router's registers (R165 to R170), by offset in the block. DESIGN CHOICE: a write of EVT_COAL fires nothing; where it
brings COUNT to the count a vector already holds, or TIME to 0, the vector fires at its next occurrence or at its timer. -/
def Mach.writeEvt (m : Mach) (d : SideId) (o : Nat) (v : Word) : Mach :=
  if o < 0x10 then
    let clear := ((v.setWidth 128 : BitVec 128) <<< (32 * (o / 4)))
    m.modSide d (fun x => { x with evt := { x.evt with pend := x.evt.pend &&& ~~~clear } })
  else if o < 0x20 then m.setMask d (o / 4 - 4) v
  else if o < 0x30 then m.evtSet d (o / 4 - 8) v
  else if 0x400 ≤ o ∧ o < 0x600 then
    let n := (o - 0x400) / 4
    if eventUnitAbsent m.part n then m
    else m.modSide d (fun x => { x with evt := { x.evt with route := sparsePut (fun _ => 0) x.evt.route n (fieldOf v 0 5) } })
  else if 0x600 ≤ o ∧ o < 0x680 then
    m.modSide d (fun x => { x with evt := { x.evt with
      coal := sparsePut (fun _ => (1 : Word)) x.evt.coal ((o - 0x600) / 4) (v &&& 0xFFFF00FF) } })
  else m

/-- The fault class registers (R616), firmware-owned and kept in MRAM. -/
def Mach.writeFaultCfg (m : Mach) (d : SideId) (k reg : Nat) (v : Word) : Mach :=
  let c := m.faultSettings k
  if !m.droneRules d || faultFixed k then m
  else if reg = 0 then { m with faultCfg := tabPut m.faultCfg k { c with window := v.toNat } }
  else if reg = 4 then { m with faultCfg := tabPut m.faultCfg k { c with thresh := fieldOf v 0 16 } }
  else m

/-- SEQ_CTL (R92): GO_UP and GO_DOWN act while Drone is in charge. DESIGN CHOICE: R92 does not say what one write of both does; the on
request acts first and the off request after it. -/
def Mach.writeSeqCtl (m : Mach) (d : SideId) (v : Word) (m1 : Mach) : Mach :=
  if !m.droneRules d then m1
  else
    let m2 := if bitOf v 31 then m1.askUp else m1
    if bitOf v 30 then m2.askDown.phaseOff else m2

/-- SEQ_RST_CFG (R99): PULSE_HOST and PULSE_HEAD act while Drone is in charge. -/
def Mach.writeRstCfg (m : Mach) (d : SideId) (v : Word) (m1 : Mach) : Mach :=
  if !m.droneRules d then m1
  else
    let m2 := if bitOf v 1 then m1.pulseHost else m1
    if bitOf v 0 then m2.pulseHead else m2

/-- A set-point written by register (R90, R97). -/
def Mach.writeRailCfg (m : Mach) (d : SideId) (r : Nat) (v : Word) : Mach :=
  let w := v &&& (if r % 4 = 0 then 0xFFFFFFF8 else 0xFFFFFFF0)
  if m.seqState != 0 || setpointBad r (fieldOf w 16 16) then m.regError d (0x40200 + 4 * r)
  else m.setRailCfg r w

/-- A write to BAR0 (R8, R14, R17, R82). -/
def writeBar0 (d : SideId) (off : Nat) (v : Word) (x : Mem) : Mem :=
  let m := x.2
  if !m.bar0On d off || regAbsent m.part off then x
  else if 0x100000 ≤ off ∧ off < 0x100700 then (x.1, m.writeEvt d (off - 0x100000) v)
  else if 0x11010 ≤ off ∧ off < 0x11190 then (x.1, m.writeFaultCfg d ((off - 0x11000) / 16) (off % 16) v)
  else if 0x40200 ≤ off ∧ off < 0x40260 then (x.1, m.writeRailCfg d ((off - 0x40200) / 4) v)
  else if 0x30000 ≤ off ∧ off < 0x30010 then (x.1, m.writeClassCfg d ((off - 0x30000) / 4) v)
  else if 0x200000 ≤ off ∧ off < 0x202000 ∧ off % 0x100 = 0 then writeDmaCtl d ((off - 0x200000) / 0x100) v x
  else
    match rowOf off with
    | none => x
    | some r =>
      let m1 := m.writePlain d r off v
      let m2 := if off = 0x40000 then m.writeSeqCtl d v m1
        else if off = 0x40010 then m.writeRstCfg d v m1
        else if off = 0x30002C ∧ bitOf v 31 then m1.modImc d (fun i => { i with log := i.log.tail })
        else if 0xD02000 ≤ off ∧ off < 0xD02200 ∧ off % 0x20 = 4 ∧ bitOf v 29 then
          m1.modCap d ((off - 0xD02000) / 0x20) (fun c => { c with fifo := c.fifo.tail })
        else if off = 0x400000 ∧ m1.inService d.other then m1.wr d.other off (m1.rd d off)
        else if off = 0x20000 then m1.perfFollow
        else m1
      (x.1, m2)

/-- RING_CTL (R148, R154). -/
def Mach.writeRingCtl (m : Mach) (d : SideId) (r : RegRow) (n : Nat) (v : Word) : Mach :=
  let m1 := m.writePlain d r (ringPage n + 0xC) (putBit v 31 (m.ringOn d n))
  if bitOf v 31 then m1.enableRing d n else m1.disableRing d n

/-- The MSI-X table (R132), by offset in it. -/
def Mach.writeMsix (m : Mach) (d : SideId) (o : Nat) (v : Word) : Mach :=
  let e := (m.side d).msix.entry (o / 16)
  let new := if o % 16 = 0 then { e with addr := e.addr / 2 ^ 32 * 2 ^ 32 + v.toNat / 4 * 4 }
    else if o % 16 = 4 then { e with addr := v.toNat * 2 ^ 32 + e.addr % 2 ^ 32 }
    else if o % 16 = 8 then { e with data := v }
    else { e with masked := bitOf v 0 }
  (m.modSide d (fun x => { x with msix := { x.msix with table := tabPut x.msix.table (o / 16) new } })).flushPba d

/-- A write to BAR4 (R143, R159). -/
def Mach.writeBar4 (m : Mach) (d : SideId) (o : Nat) (v : Word) : Mach :=
  if !m.bar4On d then m
  else if o < 0x40000 ∧ o % 0x1000 = 0x40 then m.hostDoorbell d (o / 0x1000) (v.toNat % 65536)
  else if 0x41000 ≤ o ∧ o < 0x41200 then m.writeMsix d (o - 0x41000) v
  else if (o = 0x40000 ∨ o = 0x40004) ∧ (List.range 64).any (fun n => m.ringOn d n) then m
  else
    match rowOf (bar4 + o) with
    | none => m
    | some r => if o < 0x40000 ∧ o % 0x1000 = 0xC then m.writeRingCtl d r (o / 0x1000) v else m.writePlain d r (bar4 + o) v

/-- The MSI-X capability (R132): MSI-X Enable and Function Mask. -/
def Mach.writeMsixCtl (m : Mach) (d : SideId) (v : Word) : Mach :=
  if m.fitted d && (m.side d).endpoint then
    (m.modSide d (fun x => { x with msix := { x.msix with enable := bitOf v 31, funcMask := bitOf v 30 } })).flushPba d
  else m

/-- The Link Control word (R133): bit 1 is the host's enable of ASPM L1, its place in PCI Express (PRESUMED). -/
def Mach.writeLinkCtl (m : Mach) (d : SideId) (v : Word) : Mach :=
  if m.fitted d && (m.side d).endpoint then m.modSide d (fun x => { x with aspm := bitOf v 1 }) else m

/-- A word of configuration space as it reads. -/
def Mach.cfgWord (m : Mach) (d : SideId) : Bar → Word
  | .msixCtl => BitVec.ofNat 32 (2 ^ 31 * b2n (m.side d).msix.enable + 2 ^ 30 * b2n (m.side d).msix.funcMask)
  | .linkCtl => BitVec.ofNat 32 (2 * b2n (m.side d).aspm)
  | _ => 0

/-- Whether a window is configuration space, to which R130 does not apply: a write reaches the bytes that are enabled. -/
def isCfg : Bar → Bool
  | .msixCtl => true
  | .linkCtl => true
  | .bar0 => false
  | .bar4 => false

/-- The bits of the bytes that a 4-bit mask enables. -/
def byteMask (en : Nat) : Word :=
  BitVec.ofNat 32 (([0, 1, 2, 3].map (fun i => if en / 2 ^ i % 2 = 1 then 0xFF * 256 ^ i else 0)).foldl (· + ·) 0)

/-- One word of a register write. -/
def regWrite (d : SideId) (bar : Bar) (off : Nat) (v : Word) (x : Mem) : Mem :=
  match bar with
  | .bar0 => writeBar0 d off v x
  | .bar4 => (x.1, x.2.writeBar4 d off v)
  | .msixCtl => (x.1, x.2.writeMsixCtl d v)
  | .linkCtl => (x.1, x.2.writeLinkCtl d v)

/-- The size of a window (R129); a word of configuration space is one word. -/
def barSize : Bar → Nat
  | .bar0 => 0x1000000
  | .bar4 => 0x100000
  | .msixCtl => 4
  | .linkCtl => 4

/-- The words of a register write, in rising address order; a word none of whose bytes is enabled is not written, and one of configuration
space keeps the bytes that are not. -/
def regWrites (d : SideId) (bar : Bar) : Nat → List (Nat × Word) → Mem → Mem
  | _, [], x => x
  | off, w :: ws, x =>
    let v := if isCfg bar then x.2.cfgWord d bar &&& ~~~byteMask w.1 ||| w.2 &&& byteMask w.1 else w.2
    regWrites d bar (off + 4) ws (if w.1 % 16 = 15 || isCfg bar then regWrite d bar off v x else x)

/-- Whether an access breaks R130: it is not aligned, or leaves a word partly enabled. -/
def badAccess (off : Nat) (words : List (Nat × Word)) : Bool :=
  off % 4 != 0 || words.any (fun w => w.1 % 16 != 0 && w.1 % 16 != 15)

/-- REGISTER_WRITE: R14, R130. -/
def execRegisterWrite (d : SideId) (bar : Bar) (off : Nat) (words : List (Nat × Word)) (s : State) : Host.Outcome State Fault Refusal :=
  if barSize bar < off + 4 * words.length then .fault .outsideBar
  else
    onMem (fun g m =>
      if !isCfg bar && badAccess off words then
        (g, if m.fitted d && (m.side d).st != .down && !(m.side d).d3 then
              m.put d linkStat 0 8 (satAt 0xFF (m.get d linkStat 0 8 + 1)) else m)
      else regWrites d bar off words (g, m)) s

/-! ### The status snapshot (R172, R173) -/

/-- The 128 bytes of a snapshot. -/
def Mach.snapshot (m : Mach) (d : SideId) (n : Nat) : List Byte :=
  let stat := (m.rd d mgtStat).toNat
  let up := b2n (m.mgt d 29)
  let pos (k : Nat) : List Byte := leBytes 8 (unsignedOf 64 (m.encPos k))
  let evt := (m.side d).evt.pend.toNat
  leBytes 4 n ++ leBytes 4 stat ++ leBytes 8 m.now ++ pos 0 ++ pos 1 ++ pos 2 ++ pos 3 ++
    ([0, 1, 2, 3].flatMap (fun k => wordBytes (m.rd d (encBase k + 0x20)))) ++ leBytes 4 (b2n (m.token == d) + 2 * up + 4 * up) ++
    ((List.range 6).flatMap (fun s => leBytes 2 (m.stnOf s).firstLines)) ++ leBytes 16 evt ++ leBytes 4 (m.side d).published ++
    leBytes 4 m.records.journalled ++ wordBytes (m.rd d (bar4 + 0x40008)) ++ wordBytes (m.rd d (bar4 + 0x4000C)) ++
    leBytes 2 (m.get d 0x30014 16 16) ++ leBytes 1 (m.get d 0x20004 30 2) ++ leBytes 9 0 ++ leBytes 4 n

/-- SNAPSHOT_TICK: R173. The first snapshot carries count 1. -/
def execSnapshotTick (d : SideId) (s : State) : Host.Outcome State Fault Refusal :=
  onM (fun m =>
    if m.bar4On d && (m.side d).linkUp && bitOf (m.rd d (bar4 + 0x40018)) 31 then
      let n := ((m.side d).snapSeq + 1) % 2 ^ 32
      let at_ := m.rd64 d (bar4 + 0x40010)
      (m.modSide d (fun x => { x with snapSeq := n })).emit (.hostWrite d at_ (m.snapshot d n))
    else m) s

end Sys2Proof.Machine
end

