-- ==== Sys2Proof/Machine/System.lean ====
section
/-!
DEFINITION. The system group (R196 to R200), the logs and diagnostics group (R201, R217, R670), and the run of a deferred command
(R193 to R195).
-/

namespace Sys2Proof.Machine

/-! ### The system group -/

/-- SYS_IDENTIFY: R198, R199. -/
def planSysIdentify (msg : Msg) (m : Mach) : Plan :=
  let d := affinitySide msg
  let b := m.runs d
  { reply := leBytes 2 (m.fwRelease d b) ++ leBytes 2 4 ++ wordBytes (capId m.part d) ++ wordBytes (capUnits m.part) ++
      leBytes 8 Config.moduleSerial ++ leBytes 4 (m.side d).boots ++ leBytes 1 (engCode m.eng) ++ leBytes 1 (sideCode m.token) ++
      leBytes 1 b ++ leBytes 1 0 ++ leBytes 4 (m.fwField d b 1) }

/-- SYS_IDENTIFY: R198. -/
def execSysIdentify (msg : Msg) (s : State) : Host.Outcome State Fault Refusal :=
  onM (fun m => m.runCmd { opcode := 0x0101, lenMin := 0, lenMax := 0, states := inCAPDF, perSide := true, managed := true } msg
    (planSysIdentify msg)) s

/-- SYS_STATUS: R198, R200. -/
def planSysStatus (m : Mach) : Plan :=
  { reply := leBytes 1 (engCode m.eng) ++ leBytes 1 (if m.eng = .faulted then m.cause else 0) ++ leBytes 2 m.deferred.length ++
      leBytes 4 m.armed ++ leBytes 4 m.pages.length ++ leBytes 4 m.lastComm }

/-- SYS_STATUS: R198. -/
def execSysStatus (msg : Msg) (s : State) : Host.Outcome State Fault Refusal :=
  onM (fun m => m.runCmd { opcode := 0x0102, lenMin := 0, lenMax := 0, states := inCAPDF, managed := true } msg planSysStatus) s

/-- SYS_ECHO: R198. -/
def execSysEcho (msg : Msg) (s : State) : Host.Outcome State Fault Refusal :=
  onM (fun m => m.runCmd { opcode := 0x0103, lenMin := 0, lenMax := 240, states := inCAPDF, managed := true } msg
    (fun _ => { reply := msg.payload })) s

/-- A deferred command is answered ST_CANCELLED by SYS_CANCEL. DESIGN CHOICE: its response carries DEFERRED (R175), though it never ran. -/
def Mach.cancelled (m : Mach) (w : Deferred) : Mach := m.respond w.opcode w.msg m.token 0x40 stCancelled 0 []

/-- SYS_CANCEL: R196. -/
def planSysCancel (msg : Msg) (m : Mach) : Plan :=
  let tag := numAt msg.payload 0 4
  match m.deferred.find? (fun w => w.msg.tag == tag) with
  | some w => { act := fun t => ({ t with deferred := t.deferred.filter (fun v => v.msg.tag != tag) }).cancelled w }
  | none => { refuse := some (if m.awaits.any (fun w => w.deferred && w.msg.tag == tag) then (stInProgress, 0) else (stNotFound, tag)) }

/-- SYS_CANCEL: R196. -/
def execSysCancel (msg : Msg) (s : State) : Host.Outcome State Fault Refusal :=
  onM (fun m => m.runCmd { opcode := 0x0104, lenMin := 4, lenMax := 4, states := inCAPDF } msg (planSysCancel msg)) s

/-- Whether the cause of FAULTED has gone (R191): a loop that permits again, the input, the levels of THM_STAT, or the journal. The
decision that a fault is lasting is made once and does not go on. -/
def Mach.causeGone (m : Mach) : Bool :=
  match m.cause with
  | 1 => m.laserPermit
  | 2 => m.hvPermit
  | 3 => !bitOf (m.rd .a seqStat) 20 && m.seqState != 4
  | 4 => [SideId.a, .b].all (fun d => m.get d 0x30010 16 1 = 0 && m.get d 0x30010 18 2 = 0)
  | 6 => decide (64 ≤ m.freeSlots) && !m.records.failed
  | _ => true

/-- SYS_CLEAR_FAULT: R189, R191. -/
def planSysClearFault (m : Mach) : Plan :=
  { state := !m.causeGone && !(m.cause == 1 || m.cause == 2)
    refuse := if m.causeGone then none else some (stInterlock, m.cause)
    act := Mach.reachConfigured }

/-- The states that accept SYS_CLEAR_FAULT. -/
def inF : Nat := 16

/-- SYS_CLEAR_FAULT: R191. -/
def execSysClearFault (msg : Msg) (s : State) : Host.Outcome State Fault Refusal :=
  onM (fun m => m.runCmd { opcode := 0x0105, lenMin := 0, lenMax := 0, states := inF } msg planSysClearFault) s

/-- SYS_RESTART: R86, R198. The response is stored before the restart. -/
def planSysRestart (msg : Msg) (m : Mach) : Plan :=
  let v := numAt msg.payload 0 1
  let d := if v = 2 then SideId.b else SideId.a
  { absent := v == 2 && !m.fitted .b
    down := (v == 1 || v == 2) && !m.inService d
    param := firstBad [(decide (2 < v), 0)]
    after := fun t => if t.power.phase != .running then t else if v = 0 then t.restartModule 4 else t.restartSide d 4 }

/-- SYS_RESTART: R198. -/
def execSysRestart (msg : Msg) (s : State) : Host.Outcome State Fault Refusal :=
  onToken (fun m => m.runCmd { opcode := 0x0106, lenMin := 1, lenMax := 1, states := inCF, managed := true } msg (planSysRestart msg)) s

/-- SYS_SET_TIME: R198. -/
def execSysSetTime (msg : Msg) (s : State) : Host.Outcome State Fault Refusal :=
  onM (fun m => m.runCmd { opcode := 0x0107, lenMin := 8, lenMax := 8, states := inCF } msg
    (fun _ => { act := fun t => { t with rtc := numAt msg.payload 0 8 } })) s

/-- SYS_LIST_DEFERRED: R198. -/
def planSysListDeferred (m : Mach) : Plan :=
  { reply := leBytes 4 m.deferred.length ++ m.deferred.flatMap (fun w => leBytes 4 w.msg.tag) }

/-- SYS_LIST_DEFERRED: R198. -/
def execSysListDeferred (msg : Msg) (s : State) : Host.Outcome State Fault Refusal :=
  onM (fun m => m.runCmd { opcode := 0x0108, lenMin := 0, lenMax := 0, states := inCAPDF } msg planSysListDeferred) s

/-! ### Deferred commands (R193 to R195) -/

/-- What is left of the inter-page gap that a station lies in, in microseconds at MAX_LINE_RATE (R194): none where it has no bound, 0
where a page is being exposed. -/
def Mach.gapLeft (m : Mach) (s : Nat) : Option Nat :=
  let rate := max 1 (((tabFind m.jobs m.armed).map Job.maxRate).getD 1)
  let off := signedOf 32 (m.rdA (0xD03800 + 4 * s)).toNat
  let flying := m.pages.filterMap (fun e => (tabFind e.2.prog s).bind (fun q => if q.ended then none
    else some (if q.started then 0 else e.2.startOn s - m.encPos m.jobChan)))
  let units := (List.range 16).filterMap (fun u =>
    if m.cmpArmed u && hasBit (m.getA (cmpBase u + 0x14) 0 6) s then some (m.cmpNext u + off - m.encPos (m.cmpSource u)) else none)
  match flying ++ units with
  | [] => none
  | p :: ps => some ((ps.foldl min p).toNat * 1000000 / (64 * rate))

/-- Whether a need fits what is left of a station's gap, and with the needs of the deferred commands that ran in that gap already, the
gap as it was when the first of them started (R195). -/
def Mach.gapFits (m : Mach) (s need : Nat) : Bool :=
  match m.gapLeft s with
  | none => true
  | some g => decide (need ≤ g) && (match (m.stnOf s).gapRun with
    | some r => decide (need + r.2 ≤ r.1)
    | none => true)

/-- A deferred command takes its need from the gaps of its stations. -/
def Mach.useGap (m : Mach) (w : Deferred) : Mach :=
  w.stations.foldl (fun t s => match t.gapLeft s with
    | none => t
    | some g => t.modStn s (fun x => { x with gapRun := match x.gapRun with
        | some r => some (r.1, r.2 + w.gap)
        | none => some (g, w.gap) })) m

/-- Whether the oldest deferred command may start (R193, R195). -/
def Mach.mayStart (m : Mach) (w : Deferred) : Bool :=
  !engLive m.eng || w.stations.all (fun s => m.gapFits s w.gap)

/-- Run a deferred command under its own plan; its response carries DEFERRED. -/
def Mach.runDeferred (m : Mach) (c : CmdDef) (w : Deferred) (p : Plan) : Mach :=
  match m.refusal c w.msg p with
  | some (st, det) => m.respond c.opcode w.msg (m.resultSide c w.msg) 0x40 st det []
  | none => m.carryOut c w.msg 0x40 p

/-- DEFERRED_COMMAND_RUN: R193, R195. Which item fails a self-test is open. -/
def execDeferredCommandRun (s : State) : Host.Outcome State Fault Refusal :=
  onM (fun m =>
    match m.deferred with
    | [] => m
    | w :: rest =>
      if !m.mayStart w then m
      else
        let m1 := { m.useGap w with deferred := rest }
        let failing := if Config.freeBool m.fresh 602 then some (Config.freeNat m.fresh 603) else none
        if w.opcode = 0x0901 then m1.runDeferred cmdCalRun w (planCalRun w.msg m1)
        else if w.opcode = 0x0803 then m1.runDeferred cmdHvSet w (planHvSet w.msg m1)
        else m1.runDeferred cmdSelfTest w (planSelfTest w.msg failing m1)) s

/-! ### Logs and diagnostics (R201, R217, R670) -/

/-- LOG_FILTER: R670. -/
def planLogFilter (msg : Msg) (_m : Mach) : Plan :=
  let ring := numAt msg.payload 0 4
  let lvl := numAt msg.payload 4 4
  { param := firstBad [(decide (ring < 56 ∨ 59 < ring), 0), (decide (3 < lvl), 4)]
    act := fun t => { t with logFilter := sparsePut (fun _ => 0) t.logFilter ring lvl } }

/-- LOG_FILTER: R670. -/
def execLogFilter (msg : Msg) (s : State) : Host.Outcome State Fault Refusal :=
  onM (fun m => m.runCmd { opcode := 0x0C01, lenMin := 8, lenMax := 8, states := inCAPDF, managed := true } msg (planLogFilter msg)) s

/-- The 64 bytes of a log entry (R201). -/
def LogEntry.bytes (e : LogEntry) : List Byte :=
  let body := leBytes 4 e.seq ++ leBytes 8 e.time ++ leBytes 1 (sideCode e.side) ++ leBytes 1 e.severity ++ leBytes 1 e.unit ++
    leBytes 1 e.inst ++ leBytes 2 e.code ++ leBytes 2 e.cls ++ bytesAt (Config.logArgs e.unit e.code e.args) 0 40
  body ++ wordBytes (crc32c body)

/-- The log entries from a LOG_SEQ on, oldest first (R201: LOG_SEQ counts modulo 2^32). -/
def Mach.logFrom (m : Mach) (first : Nat) : List LogEntry :=
  (m.log.filter (fun e => decide ((e.seq + 2 ^ 32 - first % 2 ^ 32) % 2 ^ 32 < 2 ^ 31))).reverse

/-- LOG_COPY: R217. As many whole entries as the buffer takes. -/
def planLogCopy (msg : Msg) (m : Mach) : Plan :=
  let len := numAt msg.payload 12 4
  let es := (m.logFrom (numAt msg.payload 0 4)).take (len / 64)
  { refuse := if (hostBuf msg 4).isNone then some (stHostFault, 0) else none
    reply := leBytes 4 es.length
    act := fun t => if es.isEmpty then t else t.emit (.hostWrite msg.side (numAt msg.payload 4 8) (es.flatMap LogEntry.bytes)) }

/-- LOG_COPY: R217. -/
def execLogCopy (msg : Msg) (s : State) : Host.Outcome State Fault Refusal :=
  onM (fun m => m.runCmd { opcode := 0x0C02, lenMin := 20, lenMax := 20, states := inCAPDF, managed := true } msg (planLogCopy msg)) s

/-- A diagnostic stream writes an entry on every side's ring, the same on both (R140, R155): a ring that is full drops and counts it. What an
entry holds is not told. -/
def Mach.diagEntry (m : Mach) (n k : Nat) : Mach :=
  let bytes := (List.range 64).map (fun i => Config.freeByte m.fresh (2 ^ 50 + 2 ^ 20 * n + 64 * k + i))
  m.onSides (fun t d => t.bar4On d && t.ringOn d n) (fun d t =>
    if t.ringFree d n = 0 then t.put d (ringPage n + 0x18) 0 16 (satAt 0xFFFF (t.get d (ringPage n + 0x18) 0 16 + 1))
    else (t.ringPost d n (fun at_ => .ringEntry d n at_ bytes)).raiseOn d 51)

/-- The diagnostic streams that run write entries. DESIGN CHOICE: the spec says neither when nor how many; the model lets a number of entries
that is free come as a DIAG_STREAM acts. -/
def Mach.diagFlow (m : Mach) : Mach :=
  m.diag.foldl (fun t e => (List.range (Config.freeNat m.fresh (730 + e.1))).foldl (fun u k => u.diagEntry e.1 k) t) m

/-- DIAG_STREAM: R217. -/
def planDiagStream (msg : Msg) (_m : Mach) : Plan :=
  let ring := numAt msg.payload 0 4
  { param := firstBad [(decide (ring < 62 ∨ 63 < ring), 0)]
    act := fun t => ({ t with diag := sparsePut (fun _ => 0) t.diag ring (numAt msg.payload 4 4) }).diagFlow }

/-- DIAG_STREAM: R217. -/
def execDiagStream (msg : Msg) (s : State) : Host.Outcome State Fault Refusal :=
  onM (fun m => m.runCmd { opcode := 0x0C03, lenMin := 8, lenMax := 8, states := inCAPDF, managed := true } msg (planDiagStream msg)) s

/-- SHUTDOWN_READ: R217, R574. -/
def planShutdownRead (m : Mach) : Plan :=
  { reply := leBytes 4 (m.shut.recs.length + 256 * b2n m.shut.overflow) ++ m.shut.recs.flatten }

/-- SHUTDOWN_READ: R574. -/
def execShutdownRead (msg : Msg) (s : State) : Host.Outcome State Fault Refusal :=
  onM (fun m => m.runCmd { opcode := 0x0C04, lenMin := 0, lenMax := 0, states := inCAPDF, managed := true } msg planShutdownRead) s

/-- SHUTDOWN_ACK: R217, R574. -/
def execShutdownAck (msg : Msg) (s : State) : Host.Outcome State Fault Refusal :=
  onM (fun m => m.runCmd { opcode := 0x0C05, lenMin := 0, lenMax := 0, states := inCAPDF, managed := true } msg
    (fun _ => { act := fun t => (({ t with shut := { t.shut with recs := [], overflow := false } }).setMgt .a 20 false).setMgt .b 20 false })) s

end Sys2Proof.Machine
end

