-- ==== Sys2Proof/Machine/Dispatch.lean ====
section
/-!
DEFINITION. The meaning of every command: one direct call per row of the opcode table.
-/

namespace Sys2Proof.Machine

/-- The effect of a command on everything but the queue. -/
def exec (i : Instr) (s : State) : Host.Outcome State Fault Refusal :=
  match i with
  | .feedChange feed present mv => Sys2Proof.Machine.execFeedChange feed present mv s
  | .powerGood => Sys2Proof.Machine.execPowerGood s
  | .otpReadDone d => Sys2Proof.Machine.execOtpReadDone d s
  | .knownAnswerTestsDone d failed => Sys2Proof.Machine.execKnownAnswerTestsDone d failed s
  | .endpointReady d => Sys2Proof.Machine.execEndpointReady d s
  | .fwBankVerified d ok => Sys2Proof.Machine.execFwBankVerified d ok s
  | .dramTrained d => Sys2Proof.Machine.execDramTrained d s
  | .sliceInitialised d slice => Sys2Proof.Machine.execSliceInitialised d slice s
  | .appReady d => Sys2Proof.Machine.execAppReady d s
  | .reducedService d => Sys2Proof.Machine.execReducedService d s
  | .adcSelfCalDone d items => Sys2Proof.Machine.execAdcSelfCalDone d items s
  | .pxcReady d => Sys2Proof.Machine.execPxcReady d s
  | .engineReady d => Sys2Proof.Machine.execEngineReady d s
  | .tokenToSideB => Sys2Proof.Machine.execTokenToSideB s
  | .ligatureTrained lanes keyOk => Sys2Proof.Machine.execLigatureTrained lanes keyOk s
  | .strapChanged straps => Sys2Proof.Machine.execStrapChanged straps s
  | .inputLow mv => Sys2Proof.Machine.execInputLow mv s
  | .collapse => Sys2Proof.Machine.execCollapse s
  | .holdoffEnd => Sys2Proof.Machine.execHoldoffEnd s
  | .alwaysOnLost => Sys2Proof.Machine.execAlwaysOnLost s
  | .pbShortPress => Sys2Proof.Machine.execPbShortPress s
  | .pbGraceEnd => Sys2Proof.Machine.execPbGraceEnd s
  | .pbLongPress => Sys2Proof.Machine.execPbLongPress s
  | .mrAssert => Sys2Proof.Machine.execMrAssert s
  | .mrRelease => Sys2Proof.Machine.execMrRelease s
  | .droneWatchdog d => Sys2Proof.Machine.execDroneWatchdog d s
  | .goUp d => Sys2Proof.Machine.execGoUp d s
  | .goDown d => Sys2Proof.Machine.execGoDown d s
  | .railInWindow => Sys2Proof.Machine.execRailInWindow s
  | .stepEnd => Sys2Proof.Machine.execStepEnd s
  | .riseTimeout rail mv => Sys2Proof.Machine.execRiseTimeout rail mv s
  | .railDischarged => Sys2Proof.Machine.execRailDischarged s
  | .dischargeTimeout rail mv => Sys2Proof.Machine.execDischargeTimeout rail mv s
  | .railFault rail mv ma => Sys2Proof.Machine.execRailFault rail mv ma s
  | .railWarn rail mv ma => Sys2Proof.Machine.execRailWarn rail mv ma s
  | .headAbsent station => Sys2Proof.Machine.execHeadAbsent station s
  | .pulseHost d => Sys2Proof.Machine.execPulseHost d s
  | .pulseHead d => Sys2Proof.Machine.execPulseHead d s
  | .resetStretchEnd out => Sys2Proof.Machine.execResetStretchEnd out s
  | .heartbeatSend => Sys2Proof.Machine.execHeartbeatSend s
  | .heartbeat polled state step count => Sys2Proof.Machine.execHeartbeat polled state step count s
  | .status src state cur flags stepCount serial => Sys2Proof.Machine.execStatus src state cur flags stepCount serial s
  | .pollUnanswered => Sys2Proof.Machine.execPollUnanswered s
  | .restart dest => Sys2Proof.Machine.execRestart dest s
  | .badFrame frame => Sys2Proof.Machine.execBadFrame frame s
  | .masterLost => Sys2Proof.Machine.execMasterLost s
  | .linkReset d kind => Sys2Proof.Machine.execLinkReset d kind s
  | .d3hotEntry d => Sys2Proof.Machine.execD3hotEntry d s
  | .d0Return d => Sys2Proof.Machine.execD0Return d s
  | .aspmL1Entry entry => Sys2Proof.Machine.execAspmL1Entry entry s
  | .bar2Read d addr len errs => Sys2Proof.Machine.execBar2Read d addr len errs s
  | .bar2Write d addr data errs partnerErrs => Sys2Proof.Machine.execBar2Write d addr data errs partnerErrs s
  | .highWordLatch d off => Sys2Proof.Machine.execHighWordLatch d off s
  | .srecDataRead d => Sys2Proof.Machine.execSrecDataRead d s
  | .registerWrite d bar off words => Sys2Proof.Machine.execRegisterWrite d bar off words s
  | .msixUnmask d vector => Sys2Proof.Machine.execMsixUnmask d vector s
  | .ringDb d ring index => Sys2Proof.Machine.execRingDb d ring index s
  | .ringEnable d ring => Sys2Proof.Machine.execRingEnable d ring s
  | .ringDisable d ring => Sys2Proof.Machine.execRingDisable d ring s
  | .messageFetch d ring bytes => Sys2Proof.Machine.execMessageFetch d ring bytes s
  | .fetchError d access => Sys2Proof.Machine.execFetchError d access s
  | .forwardedMessage src ring bytes => Sys2Proof.Machine.execForwardedMessage src ring bytes s
  | .evtSet d k mask => Sys2Proof.Machine.execEvtSet d k mask s
  | .evtMaskClear d k cleared => Sys2Proof.Machine.execEvtMaskClear d k cleared s
  | .vectorTimer d v => Sys2Proof.Machine.execVectorTimer d v s
  | .snapshotTick d => Sys2Proof.Machine.execSnapshotTick d s
  | .svcI2cTransaction addr bytes => Sys2Proof.Machine.execSvcI2cTransaction addr bytes s
  | .mgmtDatagram d bytes => Sys2Proof.Machine.execMgmtDatagram d bytes s
  | .sysIdentify m => Sys2Proof.Machine.execSysIdentify m s
  | .sysStatus m => Sys2Proof.Machine.execSysStatus m s
  | .sysEcho m => Sys2Proof.Machine.execSysEcho m s
  | .sysCancel m => Sys2Proof.Machine.execSysCancel m s
  | .sysClearFault m => Sys2Proof.Machine.execSysClearFault m s
  | .sysRestart m => Sys2Proof.Machine.execSysRestart m s
  | .sysSetTime m => Sys2Proof.Machine.execSysSetTime m s
  | .sysListDeferred m => Sys2Proof.Machine.execSysListDeferred m s
  | .deferredCommandRun => Sys2Proof.Machine.execDeferredCommandRun s
  | .railConfig m => Sys2Proof.Machine.execRailConfig m s
  | .seqProgram m => Sys2Proof.Machine.execSeqProgram m s
  | .seqUp m => Sys2Proof.Machine.execSeqUp m s
  | .seqDown m => Sys2Proof.Machine.execSeqDown m s
  | .seqRead m => Sys2Proof.Machine.execSeqRead m s
  | .seqPersist m => Sys2Proof.Machine.execSeqPersist m s
  | .resetPulse m => Sys2Proof.Machine.execResetPulse m s
  | .pwrTimers m => Sys2Proof.Machine.execPwrTimers m s
  | .perfCap m => Sys2Proof.Machine.execPerfCap m s
  | .jobDefine m => Sys2Proof.Machine.execJobDefine m s
  | .jobArm m => Sys2Proof.Machine.execJobArm m s
  | .jobEnd m => Sys2Proof.Machine.execJobEnd m s
  | .jobAbort m => Sys2Proof.Machine.execJobAbort m s
  | .pageQueue m => Sys2Proof.Machine.execPageQueue m s
  | .pageWithdraw m => Sys2Proof.Machine.execPageWithdraw m s
  | .jobRead m => Sys2Proof.Machine.execJobRead m s
  | .jobDelete m => Sys2Proof.Machine.execJobDelete m s
  | .memAlloc m => Sys2Proof.Machine.execMemAlloc m s
  | .memFree m => Sys2Proof.Machine.execMemFree m s
  | .planeDefine m => Sys2Proof.Machine.execPlaneDefine m s
  | .planeEncode m => Sys2Proof.Machine.execPlaneEncode m s
  | .planeEncodeDone errA errB => Sys2Proof.Machine.execPlaneEncodeDone errA errB s
  | .planeDelete m => Sys2Proof.Machine.execPlaneDelete m s
  | .memReadStat m => Sys2Proof.Machine.execMemReadStat m s
  | .tplLoad m => Sys2Proof.Machine.execTplLoad m s
  | .tplDelete m => Sys2Proof.Machine.execTplDelete m s
  | .glyphLoad m => Sys2Proof.Machine.execGlyphLoad m s
  | .counterSet m => Sys2Proof.Machine.execCounterSet m s
  | .counterRead m => Sys2Proof.Machine.execCounterRead m s
  | .lotSet m => Sys2Proof.Machine.execLotSet m s
  | .feedSubmit m => Sys2Proof.Machine.execFeedSubmit m s
  | .encConfig m => Sys2Proof.Machine.execEncConfig m s
  | .stationOffset m => Sys2Proof.Machine.execStationOffset m s
  | .cmpLoad m => Sys2Proof.Machine.execCmpLoad m s
  | .cmpStop m => Sys2Proof.Machine.execCmpStop m s
  | .capConfig m => Sys2Proof.Machine.execCapConfig m s
  | .rejConfig m => Sys2Proof.Machine.execRejConfig m s
  | .ltkRead m => Sys2Proof.Machine.execLtkRead m s
  | .motorConfig m => Sys2Proof.Machine.execMotorConfig m s
  | .motorSpeed m => Sys2Proof.Machine.execMotorSpeed m s
  | .motorStop m => Sys2Proof.Machine.execMotorStop m s
  | .stpConfig m => Sys2Proof.Machine.execStpConfig m s
  | .stpMove m => Sys2Proof.Machine.execStpMove m s
  | .stpGear m => Sys2Proof.Machine.execStpGear m s
  | .motionRead m => Sys2Proof.Machine.execMotionRead m s
  | .loopLoad m => Sys2Proof.Machine.execLoopLoad m s
  | .loopSetpoint m => Sys2Proof.Machine.execLoopSetpoint m s
  | .hvSet m => Sys2Proof.Machine.execHvSet m s
  | .hvEnable m => Sys2Proof.Machine.execHvEnable m s
  | .fuserSet m => Sys2Proof.Machine.execFuserSet m s
  | .fuserEnable m => Sys2Proof.Machine.execFuserEnable m s
  | .processRead m => Sys2Proof.Machine.execProcessRead m s
  | .calRun m => Sys2Proof.Machine.execCalRun m s
  | .calRunDone id items => Sys2Proof.Machine.execCalRunDone id items s
  | .calSpareStep d group => Sys2Proof.Machine.execCalSpareStep d group s
  | .calUserRead m => Sys2Proof.Machine.execCalUserRead m s
  | .calUserWrite m => Sys2Proof.Machine.execCalUserWrite m s
  | .calSave m readBackOk => Sys2Proof.Machine.execCalSave m readBackOk s
  | .calStatus m => Sys2Proof.Machine.execCalStatus m s
  | .selfTest m failing => Sys2Proof.Machine.execSelfTest m failing s
  | .ligRead m => Sys2Proof.Machine.execLigRead m s
  | .handover m => Sys2Proof.Machine.execHandover m s
  | .faultClassSet m => Sys2Proof.Machine.execFaultClassSet m s
  | .faultClassRead m => Sys2Proof.Machine.execFaultClassRead m s
  | .secAuth m => Sys2Proof.Machine.execSecAuth m s
  | .secChallenge m => Sys2Proof.Machine.execSecChallenge m s
  | .secCsr m => Sys2Proof.Machine.execSecCsr m s
  | .secCertLoad m => Sys2Proof.Machine.execSecCertLoad m s
  | .secPubkeyRead m => Sys2Proof.Machine.execSecPubkeyRead m s
  | .secTokenRead m => Sys2Proof.Machine.execSecTokenRead m s
  | .secZeroise m => Sys2Proof.Machine.execSecZeroise m s
  | .secSelfTest m failed => Sys2Proof.Machine.execSecSelfTest m failed s
  | .logFilter m => Sys2Proof.Machine.execLogFilter m s
  | .logCopy m => Sys2Proof.Machine.execLogCopy m s
  | .diagStream m => Sys2Proof.Machine.execDiagStream m s
  | .shutdownRead m => Sys2Proof.Machine.execShutdownRead m s
  | .shutdownAck m => Sys2Proof.Machine.execShutdownAck m s
  | .fwBegin m => Sys2Proof.Machine.execFwBegin m s
  | .fwData m => Sys2Proof.Machine.execFwData m s
  | .fwVerify m => Sys2Proof.Machine.execFwVerify m s
  | .fwActivate m => Sys2Proof.Machine.execFwActivate m s
  | .fwReadStat m => Sys2Proof.Machine.execFwReadStat m s
  | .encCount ch aRise bRise bHigh => Sys2Proof.Machine.execEncCount ch aRise bRise bHigh s
  | .indexPulse ch => Sys2Proof.Machine.execIndexPulse ch s
  | .encLos ch => Sys2Proof.Machine.execEncLos ch s
  | .ltkTick speeds inputs => Sys2Proof.Machine.execLtkTick speeds inputs s
  | .captureEdge input rising => Sys2Proof.Machine.execCaptureEdge input rising s
  | .captureFilterEnd input held => Sys2Proof.Machine.execCaptureFilterEnd input held s
  | .capPop d input => Sys2Proof.Machine.execCapPop d input s
  | .rejectPulseEnd output => Sys2Proof.Machine.execRejectPulseEnd output s
  | .rejectOverload output => Sys2Proof.Machine.execRejectOverload output s
  | .rejectRetry output => Sys2Proof.Machine.execRejectRetry output s
  | .sosValid station q ipos => Sys2Proof.Machine.execSosValid station q ipos s
  | .sosMissed station => Sys2Proof.Machine.execSosMissed station s
  | .eos station deviation => Sys2Proof.Machine.execEos station deviation s
  | .ledPlaneLatch station plane => Sys2Proof.Machine.execLedPlaneLatch station plane s
  | .beamFault station beam kind => Sys2Proof.Machine.execBeamFault station beam kind s
  | .laserInterlock chan => Sys2Proof.Machine.execLaserInterlock chan s
  | .hvLoopOpen chan => Sys2Proof.Machine.execHvLoopOpen chan s
  | .interlockLockout loop => Sys2Proof.Machine.execInterlockLockout loop s
  | .decoderLineDone station reads => Sys2Proof.Machine.execDecoderLineDone station reads s
  | .decoderPageBoundary station => Sys2Proof.Machine.execDecoderPageBoundary station s
  | .decoderPageBegin station => Sys2Proof.Machine.execDecoderPageBegin station s
  | .feedSeekFound station => Sys2Proof.Machine.execFeedSeekFound station s
  | .scrubRead d errs => Sys2Proof.Machine.execScrubRead d errs s
  | .imcErrPop d => Sys2Proof.Machine.execImcErrPop d s
  | .dmaEnable d ch enable => Sys2Proof.Machine.execDmaEnable d ch enable s
  | .dmaJobFetch d ch entry => Sys2Proof.Machine.execDmaJobFetch d ch entry s
  | .dmaNop d ch raw => Sys2Proof.Machine.execDmaNop d ch raw s
  | .dmaMove d ch raw errs => Sys2Proof.Machine.execDmaMove d ch raw errs s
  | .dmaMoveComplete d ch => Sys2Proof.Machine.execDmaMoveComplete d ch s
  | .dmaFeedSpace d ch => Sys2Proof.Machine.execDmaFeedSpace d ch s
  | .dmaLoop d ch raw => Sys2Proof.Machine.execDmaLoop d ch raw s
  | .dmaWait d ch raw => Sys2Proof.Machine.execDmaWait d ch raw s
  | .dmaWaitDone d ch => Sys2Proof.Machine.execDmaWaitDone d ch s
  | .dmaPaceTimer d ch => Sys2Proof.Machine.execDmaPaceTimer d ch s
  | .dmaSignal d ch raw => Sys2Proof.Machine.execDmaSignal d ch raw s
  | .dmaJump d ch raw => Sys2Proof.Machine.execDmaJump d ch raw s
  | .dmaEnd d ch raw => Sys2Proof.Machine.execDmaEnd d ch raw s
  | .dmaBusTimeout d ch addr => Sys2Proof.Machine.execDmaBusTimeout d ch addr s
  | .dmaHostError d ch addr => Sys2Proof.Machine.execDmaHostError d ch addr s
  | .dmaDisable d ch => Sys2Proof.Machine.execDmaDisable d ch s
  | .dmaResume d ch => Sys2Proof.Machine.execDmaResume d ch s
  | .panelComposeStart => Sys2Proof.Machine.execPanelComposeStart s
  | .panelReady result => Sys2Proof.Machine.execPanelReady result s
  | .checkpointTimer => Sys2Proof.Machine.execCheckpointTimer s
  | .checkpointSigned => Sys2Proof.Machine.execCheckpointSigned s
  | .checkpointLate => Sys2Proof.Machine.execCheckpointLate s
  | .motorTick ch sample => Sys2Proof.Machine.execMotorTick ch sample s
  | .motorOvercurrent ch => Sys2Proof.Machine.execMotorOvercurrent ch s
  | .tripRetry ch => Sys2Proof.Machine.execTripRetry ch s
  | .speedRampTick ch => Sys2Proof.Machine.execSpeedRampTick ch s
  | .polyStartStep ch => Sys2Proof.Machine.execPolyStartStep ch s
  | .bemfZeroCrossing ch agrees speed => Sys2Proof.Machine.execBemfZeroCrossing ch agrees speed s
  | .catchSpinTimeout ch => Sys2Proof.Machine.execCatchSpinTimeout ch s
  | .bissFrame ch frame => Sys2Proof.Machine.execBissFrame ch frame s
  | .bissRetry ch => Sys2Proof.Machine.execBissRetry ch s
  | .lockedRotor ch => Sys2Proof.Machine.execLockedRotor ch s
  | .speedDev ch on => Sys2Proof.Machine.execSpeedDev ch on s
  | .busStage vbus vin => Sys2Proof.Machine.execBusStage vbus vin s
  | .chopperFault short => Sys2Proof.Machine.execChopperFault short s
  | .stepIntervalEnd ch load => Sys2Proof.Machine.execStepIntervalEnd ch load s
  | .homeEdge ch => Sys2Proof.Machine.execHomeEdge ch s
  | .stpBridgeFault ch overcurrent => Sys2Proof.Machine.execStpBridgeFault ch overcurrent s
  | .holdDelayEnd ch => Sys2Proof.Machine.execHoldDelayEnd ch s
  | .gearTick ch => Sys2Proof.Machine.execGearTick ch s
  | .loopSample loop y late => Sys2Proof.Machine.execLoopSample loop y late s
  | .loopStateSync => Sys2Proof.Machine.execLoopStateSync s
  | .densityRead station reading => Sys2Proof.Machine.execDensityRead station reading s
  | .hvLimiting output => Sys2Proof.Machine.execHvLimiting output s
  | .hvTrip output => Sys2Proof.Machine.execHvTrip output s
  | .hvRestart output => Sys2Proof.Machine.execHvRestart output s
  | .hvArc output => Sys2Proof.Machine.execHvArc output s
  | .fuserZeroCrossing line positive good currents => Sys2Proof.Machine.execFuserZeroCrossing line positive good currents s
  | .zcLost line => Sys2Proof.Machine.execZcLost line s
  | .fuserTempSample temps => Sys2Proof.Machine.execFuserTempSample temps s
  | .sensorDisagree ch => Sys2Proof.Machine.execSensorDisagree ch s
  | .fuserOvercurrent ch => Sys2Proof.Machine.execFuserOvercurrent ch s
  | .cutoutOpen loop => Sys2Proof.Machine.execCutoutOpen loop s
  | .powerTimerExpiry timer => Sys2Proof.Machine.execPowerTimerExpiry timer s
  | .powerStateReached => Sys2Proof.Machine.execPowerStateReached s
  | .wake src => Sys2Proof.Machine.execWake src s
  | .mgmtWakeFrame d payload => Sys2Proof.Machine.execMgmtWakeFrame d payload s
  | .perfTransitionDone => Sys2Proof.Machine.execPerfTransitionDone s
  | .housekeepingSample d k value => Sys2Proof.Machine.execHousekeepingSample d k value s
  | .floorTimer => Sys2Proof.Machine.execFloorTimer s
  | .shutHoldEnd => Sys2Proof.Machine.execShutHoldEnd s
  | .thermalRestart => Sys2Proof.Machine.execThermalRestart s
  | .ligFrame crcOk lanes => Sys2Proof.Machine.execLigFrame crcOk lanes s
  | .signatureRecord station line low partner ownErr partnerErr => Sys2Proof.Machine.execSignatureRecord station line low partner ownErr partnerErr s
  | .signatureTimeout station line => Sys2Proof.Machine.execSignatureTimeout station line s
  | .stationCheckpoint station same => Sys2Proof.Machine.execStationCheckpoint station same s
  | .decisionTimeout => Sys2Proof.Machine.execDecisionTimeout s
  | .sideFault d row => Sys2Proof.Machine.execSideFault d row s
  | .appWatchdogExpiry d => Sys2Proof.Machine.execAppWatchdogExpiry d s
  | .arbiterDetect d => Sys2Proof.Machine.execArbiterDetect d s
  | .tokenMove mMinusD => Sys2Proof.Machine.execTokenMove mMinusD s
  | .forceDark stations => Sys2Proof.Machine.execForceDark stations s
  | .expDeadline suspect => Sys2Proof.Machine.execExpDeadline suspect s
  | .sideLeave => Sys2Proof.Machine.execSideLeave s
  | .ligatureDown => Sys2Proof.Machine.execLigatureDown s
  | .joinUnitCopied => Sys2Proof.Machine.execJoinUnitCopied s
  | .faultClassDrain cls side inst => Sys2Proof.Machine.execFaultClassDrain cls side inst s
  | .tamper d cause => Sys2Proof.Machine.execTamper d cause s
  | .tokenAuthTimer => Sys2Proof.Machine.execTokenAuthTimer s
  | .tokenPoll present => Sys2Proof.Machine.execTokenPoll present s
  | .tokenAnswer index answer => Sys2Proof.Machine.execTokenAnswer index answer s
  | .coRoleTimeout => Sys2Proof.Machine.execCoRoleTimeout s
  | .challengeExpiry => Sys2Proof.Machine.execChallengeExpiry s
  | .authLockEnd => Sys2Proof.Machine.execAuthLockEnd s
  | .interlockLoopClosed loop chan bothOpenMs => Sys2Proof.Machine.execInterlockLoopClosed loop chan bothOpenMs s
  | .cutoutLoopClosed loop => Sys2Proof.Machine.execCutoutLoopClosed loop s
  | .pcieLinkTrained d speed link => Sys2Proof.Machine.execPcieLinkTrained d speed link s
  | .handoverTimeout => Sys2Proof.Machine.execHandoverTimeout s
  | .tokenBusError index => Sys2Proof.Machine.execTokenBusError index s
  | .hvLimitingEnd output => Sys2Proof.Machine.execHvLimitingEnd output s
  | .brakeLimited on => Sys2Proof.Machine.execBrakeLimited on s
  | .dmaReadCompletion d ch data errs => Sys2Proof.Machine.execDmaReadCompletion d ch data errs s
  | .sleepExitDone => Sys2Proof.Machine.execSleepExitDone s

end Sys2Proof.Machine
end

