-- ==== Sys2Proof/Machine/RegView.lean ====
section
/-!
DEFINITION. What a register read returns (R8, R17, R130, R143): the word held for the register, with the fields that the model
keeps as structure and not as words filled in. Reads have no effect but the latch of R130 and the advance of R333, which are
commands of their own.
-/

namespace Sys2Proof.Machine

/-- A half of a 64-bit value: the low word at an offset that is a multiple of 8, the high word after it. -/
def halfOf (v off : Nat) : Word := BitVec.ofNat 32 (if off % 8 = 0 then v else v / 2 ^ 32)

/-- The event router's registers (R165 to R170), by offset in the block; an event of an absent unit has no route (R9). -/
def Mach.viewEvt (m : Mach) (d : SideId) (o : Nat) : Word :=
  let e := (m.side d).evt
  if o < 0x10 then (e.pend >>> (8 * o)).setWidth 32
  else if o < 0x20 then (e.mask >>> (8 * (o - 0x10))).setWidth 32
  else if o < 0x200 then 0
  else if o < 0x400 then BitVec.ofNat 32 (e.countOf ((o - 0x200) / 4))
  else if o < 0x600 then
    (if eventUnitAbsent m.part ((o - 0x400) / 4) then 0 else BitVec.ofNat 32 (e.routeOf ((o - 0x400) / 4)))
  else if o < 0x680 then e.coalOf ((o - 0x600) / 4)
  else 0

/-- The registers of a fault class (R616). -/
def Mach.viewFault (m : Mach) (d : SideId) (k reg : Nat) : Word :=
  let c := m.faultSettings k
  if reg = 0 then BitVec.ofNat 32 c.window
  else if reg = 4 then BitVec.ofNat 32 (2 ^ 31 * b2n (faultFixed k) + c.thresh)
  else if reg = 8 then
    BitVec.ofNat 32 (m.faults.filter (fun e => e.1 / 262144 == k && e.2.lasting &&
      (e.1 / 65536 % 4 == 0 || e.1 / 65536 % 4 == sideCode d))).length
  else m.rd d (0x11000 + 0x10 * k + reg)

/-- A DMA channel's registers (R301 to R303). -/
def Mach.viewDma (m : Mach) (d : SideId) (n reg : Nat) : Word :=
  let c := (m.side d).dmaOf n
  if reg = 0x04 then m.dmaStat d n
  else if reg = 0x0C then BitVec.ofNat 32 c.tokens
  else if reg = 0x10 ∨ reg = 0x14 then halfOf c.pc reg
  else if reg = 0x18 then BitVec.ofNat 32 c.faultAddr
  else if reg = 0x1C then BitVec.ofNat 32 (c.faultAddr / 2 ^ 32)
  else if reg = 0x20 then BitVec.ofNat 32 c.bytes
  else if reg = 0x24 then BitVec.ofNat 32 (c.l0.getD 0)
  else if reg = 0x28 then BitVec.ofNat 32 (c.l1.getD 0)
  else if reg = 0x2C then BitVec.ofNat 32 c.jobTag
  else if reg = 0x30 ∨ reg = 0x34 then halfOf c.b0 reg
  else if reg = 0x38 ∨ reg = 0x3C then halfOf c.b1 reg
  else m.rd d (dmaBase n + reg)

/-- The controller's registers (R277 to R281). -/
def Mach.viewImc (m : Mach) (d : SideId) (o : Nat) : Word :=
  let i := (m.side d).imc
  let head := i.log.head?
  if o = 0x10 ∨ o = 0x14 then halfOf i.scrub o
  else if o = 0x20 ∨ o = 0x24 then halfOf ((head.map ErrEntry.addr).getD 0) o
  else if o = 0x28 then
    (match head with
     | none => 0
     | some e => BitVec.ofNat 32 (2 ^ 31 * b2n e.uncorr + 2 ^ 28 * e.source + 2 ^ 24 * (e.addr / 256 % 4) + 2 ^ 15 * e.devices +
         2 ^ 12 * e.symbols + e.inst))
  else if o = 0x2C then m.rd d 0x30002C ||| BitVec.ofNat 32 i.log.length
  else m.rd d (0x300000 + o)

/-- The encoder's, the decoders' and the record window's registers (R329 to R333). -/
def Mach.viewCdc (m : Mach) (d : SideId) (o : Nat) : Word :=
  let s := (o - 0x1000) / 0x100
  let x := m.decOf s
  let r := o % 0x100
  if o = 4 then m.encStat
  else if o = 8 then m.encLine
  else if 0x1000 ≤ o ∧ o < 0x1600 then
    (if r = 0 then m.decStat s
     else if r = 4 then BitVec.ofNat 32 (if x.state = .idle then x.savedPage else ((x.queue.head?).map DecPage.pageNo).getD 0)
     else if r = 8 then BitVec.ofNat 32 x.line
     else if r = 0xC then BitVec.ofNat 32 x.band
     else if r = 0x10 ∨ r = 0x14 then halfOf x.inOffset r
     else if r = 0x18 then BitVec.ofNat 32 x.st.fill
     else m.rd d (0x400000 + o))
  else if o = 0x8004 then m.srecWord d
  else m.rd d (0x400000 + o)

/-- The compositor's registers, the counters and the record page (R334, R372 to R374). AVAILABLE says that the journal works and
holds the 64 slots of R369. DEDUCED. -/
def Mach.viewCmp (m : Mach) (d : SideId) (o : Nat) : Word :=
  let on := hasChanter m.part
  let sel := m.rd d 0x500024
  if o = 0x18 then BitVec.ofNat 32 m.feed.length
  else if o = 0x1C then BitVec.ofNat 32 (((tabFind m.jobs m.armed).map Job.feedSeq).getD 0 + 1)
  else if o = 4 then m.rd d 0x500004
  else if o = 0x20 then (if on then m.rd d 0x500020 else m.rd d 0x500020 &&& 8)
  else if 0x8000 ≤ o then
    (if o = 0x8000 then
       BitVec.ofNat 32 (2 ^ 31 * b2n (!m.records.failed && decide (64 ≤ m.freeSlots)) +
         2 ^ 30 * b2n (decide (m.freeSlots < m.journalWarn)) + 2 ^ 29 * b2n m.records.failed + m.freeSlots)
     else if o = 0x8008 then BitVec.ofNat 32 m.openSlots
     else if o = 0x800C then BitVec.ofNat 32 m.heldSlots
     else if o = 0x8010 ∨ o = 0x8014 then halfOf m.records.next o
     else if o = 0x8018 ∨ o = 0x801C then halfOf m.records.ckptSeq o
     else if o = 0x8020 then BitVec.ofNat 32 m.records.uncovered
     else m.rd d (0x500000 + o))
  else if !on then 0
  else if o = 0 then m.cmpStat
  else if o = 0x24 then
    putField sel 0 8 (match tabFind m.tpls (fieldOf sel 16 16) with
      | some t => if fieldOf sel 8 8 < tplTemplates t.bytes then templateCost t.bytes (fieldOf sel 8 8) else 0
      | none => 0)
  else if 0x1000 ≤ o ∧ o < 0x1800 then
    (let k := m.counterOf ((o - 0x1000) / 0x20)
     if o % 0x20 = 0x18 then BitVec.ofNat 32 (2 ^ 31 * b2n k.exhausted + 2 ^ 30 * b2n k.low + k.epoch % 65536)
     else if o % 0x20 = 0x1C then 0
     else
       match m.latched d (0x500000 + o / 8 * 8) with
       | some v => if o % 8 = 0 then BitVec.ofNat 32 (unsignedOf 64 v) else tabGet 0 (m.side d).latch (0x500000 + o)
       | none => 0)
  else m.rd d (0x500000 + o)

/-- The line tracker's registers that are views: ENC_COUNT and ENC_POS with their latches (R221, R227), CAP_STAT and CAP_POS
(R249, R251, R252). -/
def Mach.viewLtk (m : Mach) (d : SideId) (o : Nat) : Word :=
  let off := 0xD00000 + o
  if o < 0x400 ∧ (o % 0x100 = 0x10 ∨ o % 0x100 = 0x14 ∨ o % 0x100 = 0x18 ∨ o % 0x100 = 0x1C) then
    (match m.latched d (off / 8 * 8) with
     | some v => if o % 8 = 0 then BitVec.ofNat 32 (unsignedOf 64 v) else tabGet 0 (m.side d).latch off
     | none => 0)
  else if 0x2000 ≤ o ∧ o < 0x2200 then
    (let c := m.capOf d ((o - 0x2000) / 0x20)
     let pos := unsignedOf 64 ((c.fifo.head?).getD 0)
     if o % 0x20 = 4 then m.rd d off ||| BitVec.ofNat 32 (2 ^ 31 * b2n c.level + c.fifo.length)
     else if o % 0x20 = 8 ∨ o % 0x20 = 0xC then halfOf pos o
     else m.rd d off)
  else m.rd d off

/-- A station's screening and pixel clock registers with their views: TRC_RAMP and TRC_QUEUED, the lines left in a ramp (R406,
R407), and ACTIVE of an emitter (R438). -/
def Mach.viewStn (m : Mach) (d : SideId) (s off : Nat) : Word :=
  let t := m.stnOf s
  if off = scbBase s then
    m.rd d off ||| BitVec.ofNat 32 (2 ^ 25 * b2n (decide (0 < t.rampLeft)) + 2 ^ 24 * b2n (t.trcQueued.isSome))
  else if off = scbBase s + 0x1C then putField (m.rd d off) 0 16 t.rampLeft
  else if 0xC01000 + 0x10000 * s ≤ off ∧ off % 0x10 = 0xC then
    m.rd d off ||| BitVec.ofNat 32 (2 ^ 28 * b2n (m.mayEmit && bitOf (m.rd d (off - 0xC)) 31 && (tabFind m.jobs m.armed).isSome))
  else m.rd d off

/-- A control loop's registers (R511, R512), by loop and offset in its instance. -/
def Mach.viewLoop (m : Mach) (n reg : Nat) : Word :=
  let l := m.loopOf n
  if reg = 0 then m.loopStat n
  else if reg = 0x04 then l.sp
  else if reg = 0x08 then l.r
  else if reg = 0x0C then l.y
  else if reg = 0x10 then l.u
  else if reg = 0x14 then l.i
  else if reg = 0x18 then l.m
  else if 0x40 ≤ reg then wordAt l.desc (reg - 0x40)
  else m.rdA (0xF00000 + 0x80 * n + reg)

/-- What a read of BAR0 returns. MDR_LOOP of a motor channel is its loop of R494; PST_QUIET is free, since no time is kept (R575), and so
is the other side's own conversion of what the token holder's registers show (R21, R440). -/
def Mach.viewBar0 (m : Mach) (d : SideId) (off : Nat) : Word :=
  if off = 0 then capId m.part d
  else if off = 4 then capUnits m.part
  else if regAbsent m.part off then 0
  else if ownReg off && d != m.token then Config.freeWord (m.fresh * 2 ^ 24 + off)
  else if 0x11010 ≤ off ∧ off < 0x11190 then m.viewFault d ((off - 0x11000) / 16) (off % 16)
  else if off = 0x2001C then Config.freeWord m.fresh
  else if off = 0x40020 then putField (m.rd d off) 5 2 (if m.isMaster then 1 else if m.isSlave then 2 else 0)
  else if 0x40300 ≤ off ∧ off < 0x40360 then m.measNow ((off - 0x40300) / 4)
  else if 0x100000 ≤ off ∧ off < 0x100700 then m.viewEvt d (off - 0x100000)
  else if 0x200000 ≤ off ∧ off < 0x202000 then m.viewDma d ((off - 0x200000) / 0x100) (off % 0x100)
  else if 0x300000 ≤ off ∧ off < 0x310000 then m.viewImc d (off - 0x300000)
  else if 0x400000 ≤ off ∧ off < 0x410000 then m.viewCdc d (off - 0x400000)
  else if 0x500000 ≤ off ∧ off < 0x510000 then m.viewCmp d (off - 0x500000)
  else if 0x600000 ≤ off ∧ off < 0x660000 then m.viewStn d ((off - 0x600000) / 0x10000) off
  else if 0xC00000 ≤ off ∧ off < 0xC60000 then m.viewStn d ((off - 0xC00000) / 0x10000) off
  else if 0xD00000 ≤ off ∧ off < 0xD10000 then m.viewLtk d (off - 0xD00000)
  else if 0xE00000 ≤ off ∧ off < 0xE03800 ∧ off % 0x400 = 0x24 then BitVec.ofNat 32 ((off - 0xE00000) / 0x400)
  else if 0xF00000 ≤ off ∧ off < 0xF08000 then m.viewLoop ((off - 0xF00000) / 0x80) (off % 0x80)
  else if off = 0xF08000 then m.cteLoad
  else if 0xF40000 ≤ off ∧ off < 0xF40680 ∧ (off % 0x40 = 0x18 ∨ off % 0x40 = 0x1C) then
    m.hvMeasured ((off - 0xF40000) / 0x40) (decide (off % 0x40 = 0x1C))
  else if off = 0xF40800 then
    m.rdA off ||| BitVec.ofNat 32 (2 ^ 31 * b2n m.hvPermit + 2 ^ 30 * b2n m.ilk.hvLock + 2 ^ 29 * b2n m.ilk.hvA + 2 ^ 28 * b2n m.ilk.hvB)
  else if off = 0xF60810 then m.rdA off ||| BitVec.ofNat 32 (2 ^ 31 * b2n m.ilk.cut0 + 2 ^ 30 * b2n m.ilk.cut1)
  else if off = 0xFC0000 then m.ligStat d
  else if off = 0xFC0020 then m.ligArb
  else if off = 0xFE0000 then m.secStat d
  else m.rd (m.regSide d off) off

/-- What a read of BAR4 returns (R143): FULL of RING_STAT and FWD_UP of LINK_STAT are views, and so are the MSI-X table and PBA. -/
def Mach.viewBar4 (m : Mach) (d : SideId) (o : Nat) : Word :=
  let w := m.rd d (bar4 + o)
  if o < 0x40000 ∧ o % 0x1000 = 0x18 then
    w ||| BitVec.ofNat 32 (2 ^ 31 * b2n (decide (m.ringSize d (o / 0x1000) ≤ m.ringHeld d (o / 0x1000))))
  else if o = 0x4001C then putField w 21 1 (b2n (m.mgt d 29))
  else if 0x41000 ≤ o ∧ o < 0x41200 then
    (let e := (m.side d).msix.entry ((o - 0x41000) / 16)
     if o % 16 = 0 then BitVec.ofNat 32 e.addr
     else if o % 16 = 4 then BitVec.ofNat 32 (e.addr / 2 ^ 32)
     else if o % 16 = 8 then e.data
     else BitVec.ofNat 32 (b2n e.masked))
  else if o = 0x42000 then (m.side d).msix.pba
  else w

/-- What an aligned register read returns: 0 where the window or the block does not respond (R82, R133). -/
def Mach.readReg (m : Mach) (d : SideId) (bar : Bar) (off : Nat) : Word :=
  match bar with
  | .bar0 => if m.bar0On d off then m.viewBar0 d off else 0
  | .bar4 => if m.bar4On d then m.viewBar4 d off else 0
  | .msixCtl => m.cfgWord d .msixCtl
  | .linkCtl => m.cfgWord d .linkCtl

/-- What a read of a register returns for the bytes it enables (R130): those of the aligned word, lowest first. -/
def Mach.readBytes (m : Mach) (d : SideId) (bar : Bar) (off en : Nat) : List Byte :=
  let bs := wordBytes (m.readReg d bar (off / 4 * 4))
  (List.range 4).filterMap (fun i => if en / 2 ^ i % 2 = 1 then bs[i]? else none)

end Sys2Proof.Machine
end

