-- ==== Sys2Proof/Safety.lean ====
section
/-!
DEFINITION. What counts as a safe run, and the terms in which the claims are stated: the memories keep their canonical form, what a
command completes with, and what it leaves as it was.
-/

namespace Sys2Proof.Machine

/-- An image memory is in canonical form: addresses rise strictly and no listed byte is 0, what an unlisted one reads as. -/
def Memory.wf (x : Image) : Bool := sparseWf (fun _ => (0 : Byte)) x.cells

/-- Both image memories are in canonical form. -/
def Images.wf (g : Images) : Bool := Memory.wf g.a && Memory.wf g.b

/-- The memories of a state are in canonical form. -/
def State.memOk (s : State) : Bool := s.img.wf

/-! ### What a command leaves as it was -/

/-- A side without its registers, its event router and its MSI-X state: what events, log entries and register writes leave alone. -/
def Side.shell (s : Side) : Side := { s with regs := [], evt := Evt.init, msix := Msix.init }

/-- The module without the sides' registers, event routers and MSI-X states, the SEQ registers, the log and what left the module. -/
def Mach.shell (m : Mach) : Mach :=
  { m with a := m.a.shell, b := m.b.shell, seqRegs := [], out := [], log := [], logSeq := 0 }

/-- The module without its tag store and the commands in flight. -/
def Mach.noTags (m : Mach) : Mach := { m with tags := [], flights := [] }

/-- What `u` has sent has left `t` as well, and an event pending in `u` is pending in `t`. -/
def Mach.Keeps (t u : Mach) : Prop :=
  u.out ⊆ t.out ∧ ∀ d n, (u.side d).evt.pend.getLsbD n = true → (t.side d).evt.pend.getLsbD n = true

/-- `t` is `u` but for events, log entries, ring indices and what left the module: every part of the state outside them is the same,
every register of BAR0 reads the same, and nothing that was sent or pending is lost. -/
def Mach.Like (t u : Mach) : Prop := t.shell = u.shell ∧ (∀ d off, off < bar4 → t.rd d off = u.rd d off) ∧ t.Keeps u

/-- `t` is `u` as a Mouthpiece answer leaves it: the same but for the tag store, the commands in flight, events, ring indices and
what left the module. -/
def Mach.AsIf (t u : Mach) : Prop :=
  t.shell.noTags = u.shell.noTags ∧ (∀ d off, off < bar4 → t.rd d off = u.rd d off) ∧ t.log = u.log ∧ t.Keeps u

/-- Every register of BAR0 but those listed reads the same. -/
def Mach.OnlyRegs (t u : Mach) (offs : List Nat) : Prop := ∀ d off, off < bar4 → off ∉ offs → t.rd d off = u.rd d off

/-! ### Quiet states -/

/-- The line is at rest: no job is armed or draining, no compare unit is armed, no reject pulse is queued and no axis is geared. -/
def Mach.lineIdle (m : Mach) : Prop :=
  engLive m.eng = false ∧ (∀ u, u < 16 → m.cmpArmed u = false) ∧
    (∀ j, (m.rejOf j).queue = [] ∧ (m.rejOf j).heldOn = false) ∧ ∀ e ∈ m.drv.steps, e.2.gear = none ∧ e.2.pending = none

/-- Image memory is sound at a side: every slice is ready, no device is retired and no symbol would be read wrong. -/
def State.sound (s : State) (d : SideId) : Prop :=
  (∀ i, i < slicesOf s.m.part → s.m.mgt d i = true) ∧ (s.m.side d).imc.retired = [] ∧ (s.img.side d).errs = []

/-- A channel runs a program from host memory and has no MOVE in progress. -/
def Mach.dmaRuns (m : Mach) (d : SideId) (ch : Nat) : Prop :=
  ch < 32 ∧ m.fitted d = true ∧ (m.side d).st ≠ .down ∧ ((m.side d).dmaOf ch).state = .running ∧ ((m.side d).dmaOf ch).move = none ∧
    ((m.side d).dmaOf ch).progImage = false

/-- A channel of `m` has stopped with a fault (R298): FAULT, its cause, its event, and its entry in the log. -/
def Mach.DmaStopped (t m : Mach) (d : SideId) (ch cause pc : Nat) : Prop :=
  ((t.side d).dmaOf ch).state = .stopped ∧ ((t.side d).dmaOf ch).cause = cause ∧ ((t.side d).dmaOf ch).fault = true ∧
    ((t.side d).dmaOf ch).move = none ∧ ((t.side d).dmaOf ch).pc = pc ∧ bitOf (t.rd d (dmaBase ch + 4)) 24 = true ∧
    (t.side d).evt.pend.getLsbD (16 + ch) = true ∧
    ∃ e, t.log = e :: m.log ∧ e.unit = 0x02 ∧ e.inst = ch ∧ e.code = cause ∧ e.side = d

/-! ### What a command brings about -/

/-- A command takes a next state of which `p` holds. -/
def Gives (i : Instr) (s : State) (p : State → Prop) : Prop := ∃ t, exec i s = .next t ∧ p t

/-- An event is pending on every side that is fitted and up (R171). -/
def Mach.Pending (m : Mach) (n : Nat) : Prop :=
  ∀ d, m.fitted d = true → (m.side d).st ≠ .down → (m.side d).evt.pend.getLsbD n = true

/-- The newest log entry of `t` is one more than the log of `m` holds, and has this unit, instance, code, severity and class
(R201). -/
def Mach.Logged (t m : Mach) (unit inst code severity : Nat) (cls : Nat := 0xFFFF) : Prop :=
  ∃ e, t.log = e :: m.log ∧ e.unit = unit ∧ e.inst = inst ∧ e.code = code ∧ e.severity = severity ∧ e.cls = cls

/-- The commands that may move the token or set it back to side A: a restart of a side or of the module, a return from HIBERNATE,
TOKEN_MOVE and TOKEN_TO_SIDE_B. -/
def movesToken : Instr → Bool
  | .powerGood | .holdoffEnd | .pbShortPress | .mrRelease | .railDischarged | .dischargeTimeout _ _ | .thermalRestart => true
  | .restart _ | .tokenToSideB | .droneWatchdog _ | .tokenMove _ | .tamper _ _ | .wake _ | .powerStateReached => true
  | .svcI2cTransaction _ _ | .mgmtWakeFrame _ _ | .sysRestart _ | .fwActivate _ => true
  | _ => false

/-- The commands that may write image memory or correct what they read of it: accesses through BAR2, scrubbing, the instructions and
transfers of DMA programs, the ENABLE bit of a DMA channel, decoding, composing, encoding, the reads of PLANE_DEFINE and JOB_ARM, a slice's
initialisation and the copy to a joining side. -/
def touchesImage : Instr → Bool
  | .bar2Read _ _ _ _ | .bar2Write _ _ _ _ _ | .scrubRead _ _ | .registerWrite _ _ _ _ | .dmaNop _ _ _ | .dmaMove _ _ _ _ => true
  | .dmaLoop _ _ _ | .dmaWait _ _ _ | .dmaSignal _ _ _ | .dmaJump _ _ _ | .dmaEnd _ _ _ | .dmaReadCompletion _ _ _ _ => true
  | .dmaFeedSpace _ _ | .dmaDisable _ _ | .decoderLineDone _ _ | .planeEncodeDone _ _ | .planeDefine _ | .jobArm _ => true
  | .sliceInitialised _ _ | .joinUnitCopied | .panelReady _ => true
  | _ => false

/-! ### Mouthpiece commands -/

/-- States AP. -/
def inAP : Nat := 6
/-- States APD. -/
def inAPD : Nat := 14

/-- A Mouthpiece command's line of its group table (R198, R203, R204, R209 to R218): opcode, least and greatest payload length, the
states that accept it, whether it is per-side (S), whether Drone serves it (M); and the message it comes in. -/
def mailRow : Instr → Option (CmdDef × Msg)
  | .sysIdentify m => some (⟨0x0101, 0, 0, inCAPDF, true, true⟩, m)
  | .sysStatus m => some (⟨0x0102, 0, 0, inCAPDF, false, true⟩, m)
  | .sysEcho m => some (⟨0x0103, 0, 240, inCAPDF, false, true⟩, m)
  | .sysCancel m => some (⟨0x0104, 4, 4, inCAPDF, false, false⟩, m)
  | .sysClearFault m => some (⟨0x0105, 0, 0, inF, false, false⟩, m)
  | .sysRestart m => some (⟨0x0106, 1, 1, inCF, false, true⟩, m)
  | .sysSetTime m => some (⟨0x0107, 8, 8, inCF, false, false⟩, m)
  | .sysListDeferred m => some (⟨0x0108, 0, 0, inCAPDF, false, false⟩, m)
  | .railConfig m => some (⟨0x0201, 8, 8, inCF, false, false⟩, m)
  | .seqProgram m => some (⟨0x0202, 132, 132, inCF, false, false⟩, m)
  | .seqUp m => some (⟨0x0203, 0, 0, inCF, false, false⟩, m)
  | .seqDown m => some (⟨0x0204, 0, 0, inCF, false, false⟩, m)
  | .seqRead m => some (⟨0x0205, 0, 0, inCAPDF, false, true⟩, m)
  | .seqPersist m => some (⟨0x0206, 4, 4, inC, false, false⟩, m)
  | .resetPulse m => some (⟨0x0207, 4, 4, inCF, false, false⟩, m)
  | .pwrTimers m => some (⟨0x0208, 12, 12, inCAPDF, false, false⟩, m)
  | .perfCap m => some (⟨0x0209, 4, 4, inCAPDF, false, false⟩, m)
  | .jobDefine m => some (⟨0x0301, 48, 48, inC, false, false⟩, m)
  | .jobArm m => some (⟨0x0302, 4, 4, inC, false, false⟩, m)
  | .jobEnd m => some (⟨0x0303, 4, 4, inAP, false, false⟩, m)
  | .jobAbort m => some (⟨0x0304, 4, 4, inAPD, false, false⟩, m)
  | .pageQueue m => some (⟨0x0305, 64, 64, inCAP, false, false⟩, m)
  | .pageWithdraw m => some (⟨0x0306, 8, 8, inAP, false, false⟩, m)
  | .jobRead m => some (⟨0x0307, 4, 4, inCAPDF, false, false⟩, m)
  | .jobDelete m => some (⟨0x0308, 4, 4, inCF, false, false⟩, m)
  | .memAlloc m => some (⟨0x0401, 8, 8, inCAPDF, false, false⟩, m)
  | .memFree m => some (⟨0x0402, 4, 4, inCAPDF, false, false⟩, m)
  | .planeDefine m => some (⟨0x0403, 24, 24, inCAPD, false, false⟩, m)
  | .planeEncode m => some (⟨0x0404, 12, 12, inCAPD, false, false⟩, m)
  | .planeDelete m => some (⟨0x0405, 4, 4, inCAPDF, false, false⟩, m)
  | .memReadStat m => some (⟨0x0406, 0, 0, inCAPDF, true, false⟩, m)
  | .tplLoad m => some (⟨0x0501, 16, 16, inCAPD, false, false⟩, m)
  | .tplDelete m => some (⟨0x0502, 4, 4, inCAPDF, false, false⟩, m)
  | .glyphLoad m => some (⟨0x0503, 20, 20, inCAPD, false, false⟩, m)
  | .counterSet m => some (⟨0x0504, 16, 16, inCF, false, false⟩, m)
  | .counterRead m => some (⟨0x0505, 4, 4, inCAPDF, false, false⟩, m)
  | .lotSet m => some (⟨0x0506, 5, 68, inCAPD, false, false⟩, m)
  | .feedSubmit m => some (⟨0x0507, 16, 16, inAPD, false, false⟩, m)
  | .encConfig m => some (⟨0x0601, 32, 32, inC, false, false⟩, m)
  | .stationOffset m => some (⟨0x0602, 8, 8, inCAP, false, false⟩, m)
  | .cmpLoad m => some (⟨0x0603, 32, 32, inCAP, false, false⟩, m)
  | .cmpStop m => some (⟨0x0604, 4, 4, inCAPD, false, false⟩, m)
  | .capConfig m => some (⟨0x0605, 8, 8, inC, false, false⟩, m)
  | .rejConfig m => some (⟨0x0606, 16, 16, inC, false, false⟩, m)
  | .ltkRead m => some (⟨0x0607, 4, 4, inCAPDF, false, false⟩, m)
  | .motorConfig m => some (⟨0x0701, 64, 64, inC, false, false⟩, m)
  | .motorSpeed m => some (⟨0x0702, 12, 12, inCAPD, false, false⟩, m)
  | .motorStop m => some (⟨0x0703, 4, 4, inCAPDF, false, false⟩, m)
  | .stpConfig m => some (⟨0x0704, 32, 32, inC, false, false⟩, m)
  | .stpMove m => some (⟨0x0705, 24, 24, inCAPD, false, false⟩, m)
  | .stpGear m => some (⟨0x0706, 24, 24, inCAPD, false, false⟩, m)
  | .motionRead m => some (⟨0x0707, 4, 4, inCAPDF, false, false⟩, m)
  | .loopLoad m => some (⟨0x0801, 68, 68, inC, false, false⟩, m)
  | .loopSetpoint m => some (⟨0x0802, 8, 8, inCAPD, false, false⟩, m)
  | .hvSet m => some (⟨0x0803, 16, 16, inCAPD, false, false⟩, m)
  | .hvEnable m => some (⟨0x0804, 8, 8, inCAPD, false, false⟩, m)
  | .fuserSet m => some (⟨0x0805, 12, 12, inCAPDF, false, false⟩, m)
  | .fuserEnable m => some (⟨0x0806, 8, 8, inCAPDF, false, false⟩, m)
  | .processRead m => some (⟨0x0807, 4, 4, inCAPDF, false, false⟩, m)
  | .calRun m => some (⟨0x0901, 8, 8, inCAPD, false, false⟩, m)
  | .calUserRead m => some (⟨0x0902, 16, 16, inCAPDF, false, false⟩, m)
  | .calUserWrite m => some (⟨0x0903, 16, 16, inCAPD, false, false⟩, m)
  | .calSave m _ => some (⟨0x0904, 0, 0, inCAPD, false, false⟩, m)
  | .calStatus m => some (⟨0x0905, 0, 0, inCAPDF, false, false⟩, m)
  | .selfTest m _ => some (⟨0x0906, 8, 8, inCAPD, false, false⟩, m)
  | .ligRead m => some (⟨0x0A01, 0, 0, inCAPDF, true, false⟩, m)
  | .handover m => some (⟨0x0A02, 0, 0, inCAPD, false, false⟩, m)
  | .faultClassSet m => some (⟨0x0A03, 12, 12, inC, false, false⟩, m)
  | .faultClassRead m => some (⟨0x0A04, 4, 4, inCAPDF, false, false⟩, m)
  | .secAuth m => some (⟨0x0B01, 72, 72, inCAPDF, false, false⟩, m)
  | .secChallenge m => some (⟨0x0B02, 4, 4, inCAPDF, false, false⟩, m)
  | .secCsr m => some (⟨0x0B03, 20, 20, inC, false, false⟩, m)
  | .secCertLoad m => some (⟨0x0B04, 20, 20, inC, false, false⟩, m)
  | .secPubkeyRead m => some (⟨0x0B05, 4, 4, inCAPDF, false, false⟩, m)
  | .secTokenRead m => some (⟨0x0B06, 4, 4, inCAPDF, false, false⟩, m)
  | .secZeroise m => some (⟨0x0B07, 0, 0, inCF, false, false⟩, m)
  | .secSelfTest m _ => some (⟨0x0B08, 0, 0, inC, false, false⟩, m)
  | .logFilter m => some (⟨0x0C01, 8, 8, inCAPDF, false, true⟩, m)
  | .logCopy m => some (⟨0x0C02, 20, 20, inCAPDF, false, true⟩, m)
  | .diagStream m => some (⟨0x0C03, 8, 8, inCAPDF, false, true⟩, m)
  | .shutdownRead m => some (⟨0x0C04, 0, 0, inCAPDF, false, true⟩, m)
  | .shutdownAck m => some (⟨0x0C05, 0, 0, inCAPDF, false, true⟩, m)
  | .fwBegin m => some (⟨0x0D01, 8, 8, inCAPDF, false, true⟩, m)
  | .fwData m => some (⟨0x0D02, 9, 8176, inCAPDF, false, true⟩, m)
  | .fwVerify m => some (⟨0x0D03, 0, 0, inCAPDF, false, true⟩, m)
  | .fwActivate m => some (⟨0x0D04, 4, 4, inCF, false, true⟩, m)
  | .fwReadStat m => some (⟨0x0D05, 0, 0, inCAPDF, false, true⟩, m)
  | _ => none

/-- A Mouthpiece command is accepted and carried out at once: its message is well formed (R177), its tag is new (R179), no refusal of
R187 applies, its path is free where it needs one (R193), and VALIDATE is clear (R175). -/
abbrev Mach.takes (m : Mach) (c : CmdDef) (msg : Msg) (plan : Mach → Plan) : Prop :=
  malformedAt c msg = none ∧ m.tagVerdict c.opcode msg = .new ∧ isValidate msg = false ∧
    (m.begin_ c.opcode msg).refusal c msg (plan (m.begin_ c.opcode msg)) = none ∧
    (plan (m.begin_ c.opcode msg)).need.all (fun n => n.free || !engLive m.eng) = true

/-- The newest record of the tag store answers a command with a status, a DETAIL and a payload (R175, R178). -/
def Mach.answers (t : Mach) (opcode : Nat) (msg : Msg) (by_ : SideId) (status detail : Nat) (payload : List Byte) : Prop :=
  t.tags.head? = some ⟨msg.tag, msgDigest opcode msg, respBytes opcode msg by_ 0 status detail payload⟩

/-- A command that answers at once is served in every state that accepts it and of which `pre` holds: it takes a next state that holds
its response, with ST_OK and the payload given, and its effect; image memory and the queue stay. -/
def Served (i : Msg → Instr) (plan : Msg → Mach → Plan) (reply : Msg → Mach → List Byte)
    (effect : Msg → Mach → Mach → Prop) (pre : Msg → Mach → Prop := fun _ _ => True) : Prop :=
  ∀ msg s c, mailRow (i msg) = some (c, msg) → s.tick.takes c msg (plan msg) → pre msg (s.tick.begin_ c.opcode msg) →
    Gives (i msg) s (fun t =>
      t.m.answers c.opcode msg (s.m.resultSide c msg) stOk 0 (reply msg (s.tick.begin_ c.opcode msg)) ∧
      effect msg (s.tick.begin_ c.opcode msg) t.m ∧ t.img = s.img ∧ t.pending = s.pending)

/-- A command that is answered later is taken up in every state that accepts it and of which `pre` holds: it waits, and its effect
holds; image memory and the queue stay. -/
def Started (i : Msg → Instr) (plan : Msg → Mach → Plan) (kind : Msg → Mach → AwaitKind)
    (effect : Msg → Mach → Mach → Prop) (pre : Msg → Mach → Prop := fun _ _ => True) : Prop :=
  ∀ msg s c, mailRow (i msg) = some (c, msg) → s.tick.takes c msg (plan msg) → pre msg (s.tick.begin_ c.opcode msg) →
    Gives (i msg) s (fun t =>
      t.m.awaits.contains ⟨kind msg (s.tick.begin_ c.opcode msg), c.opcode, msg, false⟩ = true ∧
      effect msg (s.tick.begin_ c.opcode msg) t.m ∧ t.img = s.img ∧ t.pending = s.pending)

/-- The effect of a command that only reads: nothing but the answer. -/
def unchanged (_ : Msg) (m t : Mach) : Prop := t.AsIf m

/-- The effect of a command that answers and turns the module into `f`. -/
def becomes (f : Msg → Mach → Mach) (msg : Msg) (m t : Mach) : Prop := t.AsIf (f msg m)

end Sys2Proof.Machine
end

