-- ==== Sys2Proof/Certificates/Slice0/Obligations.lean ====
section
/-!
DEFINITION. The statements for the provers. Where a statement names a value that the spec leaves open and the model chooses, its text
says so.
-/

open Sys2Proof Sys2Proof.Machine

/-! ### Mouthpiece commands (chapter 5) -/

/-- What the commands of the system group answer and do. In every state that accepts them, SYS_IDENTIFY, SYS_STATUS, SYS_ECHO,
SYS_SET_TIME, SYS_LIST_DEFERRED, SYS_CANCEL of a command that is still deferred, and SYS_CLEAR_FAULT once the cause has gone take a next
state that holds their response with ST_OK and the payload laid out here. The readers leave everything else as it was; SYS_SET_TIME sets
the RTC; SYS_CANCEL drops the command of the tag from the deferral queue; SYS_CLEAR_FAULT brings the engine to CONFIGURED with no job
armed and no cause. How the firmware's build number reads is an open value of Config. -/
def Obligations.SystemGroupServed : Prop :=
  Served .sysIdentify planSysIdentify
    (fun msg m => leBytes 2 (m.fwRelease (affinitySide msg) (m.runs (affinitySide msg))) ++ leBytes 2 4 ++
      wordBytes (capId m.part (affinitySide msg)) ++ wordBytes (capUnits m.part) ++ leBytes 8 Config.moduleSerial ++
      leBytes 4 (m.side (affinitySide msg)).boots ++ leBytes 1 (engCode m.eng) ++ leBytes 1 (sideCode m.token) ++
      leBytes 1 (m.runs (affinitySide msg)) ++ leBytes 1 0 ++
      leBytes 4 (m.fwField (affinitySide msg) (m.runs (affinitySide msg)) 1)) unchanged ∧
  Served .sysStatus (fun _ => planSysStatus)
    (fun _ m => leBytes 1 (engCode m.eng) ++ leBytes 1 (if m.eng = .faulted then m.cause else 0) ++ leBytes 2 m.deferred.length ++
      leBytes 4 m.armed ++ leBytes 4 m.pages.length ++ leBytes 4 m.lastComm) unchanged ∧
  Served .sysEcho (fun msg _ => { reply := msg.payload }) (fun msg _ => msg.payload) unchanged ∧
  Served .sysSetTime (fun msg _ => { act := fun t => { t with rtc := numAt msg.payload 0 8 } }) (fun _ _ => [])
    (becomes fun msg m => { m with rtc := numAt msg.payload 0 8 }) ∧
  Served .sysListDeferred (fun _ => planSysListDeferred)
    (fun _ m => leBytes 4 m.deferred.length ++ m.deferred.flatMap (fun w => leBytes 4 w.msg.tag)) unchanged ∧
  Served .sysCancel planSysCancel (fun _ _ => [])
    (becomes fun msg m => { m with deferred := m.deferred.filter (fun w => w.msg.tag != numAt msg.payload 0 4) }) ∧
  Served .sysClearFault (fun _ => planSysClearFault) (fun _ _ => [])
    (fun _ m t => t.eng = .configured ∧ t.armed = 0 ∧ t.cause = 0 ∧ t.feed = [] ∧ t.deferred = m.deferred ∧ t.jobs = m.jobs)

/-- What the commands of the logs and diagnostics group answer and do. In every state that accepts them, LOG_FILTER holds the lowest
severity that a log ring takes, DIAG_STREAM the stream of a diagnostic ring, whose entries come on that ring alone, SHUTDOWN_READ answers
the thermal-shutdown records that are not acknowledged with their number and OVERFLOW and changes nothing, SHUTDOWN_ACK clears them and
SHUTDOWN_UNACK on both sides, and LOG_COPY writes the whole 64-byte entries from a LOG_SEQ on that fit its buffer and answers their
number; nothing else changes. -/
def Obligations.LogGroupServed : Prop :=
  Served .logFilter planLogFilter (fun _ _ => [])
    (becomes fun msg m =>
      { m with logFilter := sparsePut (fun _ => 0) m.logFilter (numAt msg.payload 0 4) (numAt msg.payload 4 4) }) ∧
  Served .diagStream planDiagStream (fun _ _ => [])
    (becomes fun msg m => { m with diag := sparsePut (fun _ => 0) m.diag (numAt msg.payload 0 4) (numAt msg.payload 4 4) }) ∧
  Served .shutdownRead (fun _ => planShutdownRead)
    (fun _ m => leBytes 4 (m.shut.recs.length + 256 * b2n m.shut.overflow) ++ m.shut.recs.flatten) unchanged ∧
  Served .shutdownAck
    (fun _ _ => { act := fun t => (({ t with shut := { t.shut with recs := [], overflow := false } }).setMgt .a 20 false).setMgt .b 20 false })
    (fun _ _ => [])
    (fun _ m t => t.shut = { m.shut with recs := [], overflow := false } ∧ t.mgt .a 20 = false ∧ t.mgt .b 20 = false ∧
      t.log = m.log ∧ ∀ d off, off < bar4 → off ≠ 0x10000 → t.rd d off = m.rd d off) ∧
  Served .logCopy planLogCopy
    (fun msg m => leBytes 4 ((m.logFrom (numAt msg.payload 0 4)).take (numAt msg.payload 12 4 / 64)).length)
    (becomes fun msg m => if (m.logFrom (numAt msg.payload 0 4)).take (numAt msg.payload 12 4 / 64) = [] then m
      else m.emit (.hostWrite msg.side (numAt msg.payload 4 8)
        (((m.logFrom (numAt msg.payload 0 4)).take (numAt msg.payload 12 4 / 64)).flatMap LogEntry.bytes)))

/-- What the commands of the power and rails group answer and do. In every state that accepts them, RAIL_CONFIG writes a rail's
configuration with the set-point brought to the resolution, SEQ_PROGRAM the step count and all sixteen steps, SEQ_PERSIST MRAM alone,
PWR_TIMERS the three sleep timers of the fitted sides, RESET_PULSE asserts and stretches the outputs of its mask, PERF_CAP sets CAP, and
SEQ_READ answers SEQ_STAT and the 24 measurements and changes nothing. SEQ_UP when ON and SEQ_DOWN when OFF answer at once; from OFF with
steps programmed, SEQ_UP waits while step 0 rises; from ON with a rail on in the last step, SEQ_DOWN waits while that step's rails are
off; a slave that hears its master passes the request on. -/
def Obligations.RailGroupServed : Prop :=
  Served .railConfig planRailConfig (fun _ _ => [])
    (becomes fun msg m => m.wr .a (0x40200 + 4 * numAt msg.payload 0 4)
      (putField (wordAt msg.payload 4) 16 16 (setpointOf (numAt msg.payload 0 4) (fieldOf (wordAt msg.payload 4) 16 16)))) ∧
  Served .seqProgram planSeqProgram (fun _ _ => [])
    (fun msg m t => t.get .a 0x40000 24 4 = numAt msg.payload 0 4 ∧
      (∀ k, k < 16 → t.rd .a (0x40100 + 4 * k) = wordAt msg.payload (4 + 8 * k) ∧
        t.rd .a (0x40140 + 4 * k) = wordAt msg.payload (8 + 8 * k)) ∧
      (∀ d off, off < bar4 → off ≠ 0x40000 → ¬ (0x40100 ≤ off ∧ off < 0x40180) → t.rd d off = m.rd d off) ∧
      t.shell.noTags = m.shell.noTags ∧ t.log = m.log) ∧
  Served .seqRead (fun _ => planSeqRead)
    (fun _ m => (m.rd .a 0x40004 :: (List.range 24).map m.measNow).flatMap wordBytes) unchanged ∧
  Served .seqPersist planSeqPersist (fun _ _ => [])
    (becomes fun msg m => { m with seq := { m.seq with saved := wordAt msg.payload 0 } }) ∧
  Served .resetPulse planResetPulse (fun _ _ => [])
    (becomes fun msg m => { m with power := { m.power with
      rstHost := if hasBit (numAt msg.payload 0 4) 1 then ⟨true, true⟩ else m.power.rstHost
      rstHead := if hasBit (numAt msg.payload 0 4) 0 then ⟨true, true⟩ else m.power.rstHead } }) ∧
  Served .pwrTimers planPwrTimers (fun _ _ => [])
    (fun msg m t => (∀ d, m.fitted d = true → t.rd d 0x20010 = BitVec.ofNat 32 (numAt msg.payload 0 4) ∧
        t.rd d 0x20014 = BitVec.ofNat 32 (numAt msg.payload 4 4) ∧ t.rd d 0x20018 = BitVec.ofNat 32 (numAt msg.payload 8 4)) ∧
      t.OnlyRegs m [0x20010, 0x20014, 0x20018] ∧ t.shell.noTags = m.shell.noTags ∧ t.log = m.log) ∧
  Served .perfCap planPerfCap (fun _ _ => [])
    (fun msg m t => t.getA 0x20000 30 2 = numAt msg.payload 0 4 ∧ t.OnlyRegs m [0x20000, 0x20004] ∧
      t.shell.noTags = m.shell.noTags ∧ t.log = m.log) ∧
  Served .seqUp (fun _ => planSeqUp) (fun _ _ => []) unchanged (fun _ m => m.seqState = 2 ∧ m.isSlave = false) ∧
  Served .seqDown (fun _ => planSeqDown) (fun _ _ => []) unchanged (fun _ m => m.seqState = 0 ∧ m.isSlave = false) ∧
  Started .seqUp (fun _ => planSeqUp) (fun _ _ => .seqUp) (fun _ _ t => t.seqState = 1 ∧ t.curStep = 0)
    (fun _ m => m.seqState = 0 ∧ m.isSlave = false ∧ m.isMaster = false ∧ 0 < m.stepCount) ∧
  Started .seqUp (fun _ => planSeqUp) (fun _ _ => .seqUp) (fun _ _ t => t.bus.reqUp = true)
    (fun _ m => m.seqState ≠ 2 ∧ m.isSlave = true) ∧
  Started .seqDown (fun _ => planSeqDown) (fun _ _ => .seqDown)
    (fun _ m t => t.seqState = 3 ∧ ∀ r ∈ m.stepRails (m.stepCount - 1), t.railOn r = false)
    (fun _ m => m.seqState = 2 ∧ m.isSlave = false ∧ m.isMaster = false ∧ 0 < m.stepCount ∧
      ∃ r ∈ m.stepRails (m.stepCount - 1), m.railOn r = true)

/-- The steps of a power-up and a power-down, a failed rail and an absent head. GO_UP from OFF begins step 0 of a power-up and GO_DOWN
from ON begins a power-down (outside a group, with Drone's leave); a slave that hears its master passes both on. RAIL_IN_WINDOW puts the
rails of the step in window, RAIL ON without fault or warning. STEP_END goes on to the next step, and from the last one to ON.
RISE_TIMEOUT sets RISE_TIMEOUT, raises event 8 and turns the power-up back, and raises it again for each rail of the step that was late
too. RAIL_FAULT of a rail that is on and whose step has ended raises event 8 and keeps its station out of this power-up, and RAIL_WARN of
such a rail sets WARN, raises event 3 and logs; a rail that is not judged is left alone by both; HEAD_ABSENT switches the four rails of
its station off and keeps it out. A committed page on the station is not in progress in the last two, which would blank the rest of it. -/
def Obligations.RailSequenceSteps : Prop :=
  (∀ (s : State) d, s.m.droneRules d = true → s.m.seqState = 0 → s.m.isSlave = false → s.m.isMaster = false → 0 < s.m.stepCount →
    Gives (.goUp d) s (fun t => t.m.seqState = 1 ∧ t.m.curStep = 0 ∧ t.img = s.img)) ∧
  (∀ (s : State) d, s.m.droneRules d = true → s.m.isSlave = true →
    Gives (.goUp d) s (fun t => t.m.bus.reqUp = true ∧ t.m.Like { s.tick with bus := { s.m.bus with reqUp := true } }) ∧
    Gives (.goDown d) s (fun t => t.m.Like { s.tick with bus := { s.m.bus with reqDown := true } })) ∧
  (∀ (s : State) d, s.m.droneRules d = true → s.m.seqState = 2 → s.m.isSlave = false → s.m.isMaster = false → 0 < s.m.stepCount →
    Gives (.goDown d) s (fun t => (t.m.seqState = 3 ∨ t.m.seqState = 0) ∧
      ∀ r ∈ s.m.stepRails (s.m.stepCount - 1), t.m.railOn r = false)) ∧
  (∀ s : State, s.m.seqState = 1 → s.m.seq.inWindow = false →
    Gives .railInWindow s (fun t => t.m.seq.inWindow = true ∧ t.m.seqState = 1 ∧
      (∀ r ∈ s.m.upRails s.m.curStep, t.m.railOn r = true ∧ bitOf (t.m.rd .a (railMeas r)) 3 = false ∧
        bitOf (t.m.rd .a (railMeas r)) 2 = false) ∧
      t.m.OnlyRegs s.m ((s.m.upRails s.m.curStep).map railMeas) ∧ t.m.log = s.m.log)) ∧
  (∀ s : State, s.m.seqState = 1 → s.m.seq.inWindow = true → s.m.bus.grouped = false →
    (s.m.curStep + 1 < s.m.stepCount → Gives .stepEnd s (fun t => t.m.seqState = 1 ∧ t.m.curStep = s.m.curStep + 1)) ∧
    (s.m.stepCount ≤ s.m.curStep + 1 → Gives .stepEnd s (fun t => t.m.seqState = 2))) ∧
  (∀ (s : State) rail mv, s.m.seqState = 1 → s.m.seq.inWindow = false → rail ∈ s.m.upRails s.m.curStep →
    Gives (.riseTimeout rail mv) s (fun t => t.m.seqState ≠ 1 ∧ bitOf (t.m.rd .a 0x40004) 21 = true ∧ t.m.Pending 8 ∧
      t.m.seq.upFailed = some rail ∧ ∀ r, t.m.seq.late.contains r = ((s.m.upRails s.m.curStep).contains r && r != rail))) ∧
  (∀ (s : State) rail mv, s.m.seq.late.contains rail = true → (s.m.seqState = 3 ∨ s.m.seqState = 0) →
    Gives (.riseTimeout rail mv) s (fun t => t.m.Pending 8 ∧ t.m.seqState = s.m.seqState ∧ bitOf (t.m.rd .a 0x40004) 21 = true ∧
      t.m.seq.late.contains rail = false ∧ ∃ e ∈ t.m.log, e.code = 0x0204 ∧ e.inst = rail)) ∧
  (∀ (s : State) rail mv ma, s.m.railJudged rail = false →
    Gives (.railFault rail mv ma) s (fun t => t.m = s.tick) ∧ Gives (.railWarn rail mv ma) s (fun t => t.m = s.tick)) ∧
  (∀ (s : State) rail mv ma, s.m.railJudged rail = true → s.m.bus.grouped = false → s.m.pages = [] →
    Gives (.railFault rail mv ma) s (fun t => t.m.Pending 8 ∧ hasBit t.m.seq.stnOff (rail / 4) = true ∧
      ∃ e ∈ t.m.log, e.code = 0x0206 ∧ e.inst = rail ∧ e.args = [(mv : Int), (ma : Int)])) ∧
  (∀ (s : State) rail mv ma, s.m.railJudged rail = true →
    Gives (.railWarn rail mv ma) s (fun t => t.m.Like (s.tick.put .a (railMeas rail) 2 1 1) ∧ t.m.Pending 3 ∧
      t.m.Logged s.m 0 rail 0x0207 1)) ∧
  (∀ (s : State) station, station < stationsOf s.m.part → s.m.pages = [] →
    Gives (.headAbsent station) s (fun t => hasBit t.m.power.heads station = true ∧
      (∀ k, k < 4 → t.m.railOn (4 * station + k) = false) ∧
      ((∃ k, k < 4 ∧ s.m.railOn (4 * station + k) = true) → t.m.Pending 8 ∧ hasBit t.m.seq.stnOff station = true ∧
        t.m.Logged s.m 0 station 0x0208 2)))

/-- The reset outputs and the sequencing bus. PULSE_HOST and PULSE_HEAD assert and stretch their output and RESET_STRETCH_END releases one
whose stretch runs. HEARTBEAT_SEND of a master polls the next slave of SLAVE_MASK and sends its frame; HEARTBEAT sets MASTER_HEARD, makes
a slave at OFF follow a master that rises, powers a slave up that has come back to a group that is ON when it is polled again (the model's
reading of R122 beside R124, DEDUCED, in the log), and makes the slave that is polled send its STATUS; STATUS shows its slave present, and
a serial that differs from the slave's last one sets ADDR_CONFLICT and raises event 2; the third POLL_UNANSWERED in a row shows the slave
missing and raises event 2; BAD_FRAME counts with saturation; MASTER_LOST clears MASTER_HEARD and turns a rise back. A module without its
always-on domain or in SOFT_OFF hears none of them. -/
def Obligations.SequencingBusEvents : Prop :=
  (∀ (s : State) d, s.m.droneRules d = true →
    Gives (.pulseHost d) s (fun t => t.m.Like { s.tick with power := { s.m.power with rstHost := ⟨true, true⟩ } } ∧ t.m.log = s.m.log) ∧
    Gives (.pulseHead d) s (fun t => t.m.Like { s.tick with power := { s.m.power with rstHead := ⟨true, true⟩ } } ∧ t.m.log = s.m.log)) ∧
  (∀ s : State, (s.m.power.rstHost.stretch = true → Gives (.resetStretchEnd .host) s (fun t =>
      t.m.Like { s.tick with power := { s.m.power with rstHost := ⟨false, false⟩ } } ∧ t.m.log = s.m.log)) ∧
    (s.m.power.rstHead.stretch = true → Gives (.resetStretchEnd .head) s (fun t =>
      t.m.Like { s.tick with power := { s.m.power with rstHead := ⟨false, false⟩ } } ∧ t.m.log = s.m.log))) ∧
  (∀ s : State, s.m.isMaster = true → s.m.booted = true →
    Gives .heartbeatSend s (fun t => t.m.bus.polled = s.m.nextPolled s.m.bus.polled ∧ t.m.bus.seqNo = (s.m.bus.seqNo + 1) % 256 ∧
      Out.busFrame (busFrame 0xFF 0 0x01 s.m.bus.seqNo [BitVec.ofNat 8 (s.m.nextPolled s.m.bus.polled),
        BitVec.ofNat 8 s.m.seqState, BitVec.ofNat 8 s.m.bus.groupStep, BitVec.ofNat 8 s.m.groupCount]) ∈ t.m.out)) ∧
  (∀ (s : State) polled state step count, s.m.get .a 0x40020 0 4 ≠ 0 → s.m.hearsBus = true →
    (s.m.bus.lastHb = none ∨ (s.m.bus.lastHb = some (state, step) ∧ (s.m.bus.returning = false ∨ state ≠ 2 ∨ s.m.seqState ≠ 0))) →
    Gives (.heartbeat polled state step count) s (fun t => bitOf (t.m.rd .a 0x40024) 15 = true ∧ t.m.bus.heard = true ∧
      t.m.bus.lastHb = some (state, step) ∧
      (polled ≠ s.m.get .a 0x40020 0 4 → t.m.out = s.m.out) ∧
      (polled = s.m.get .a 0x40020 0 4 → t.m.bus.reqUp = false ∧ t.m.bus.reqDown = false ∧
        ∃ p, Out.busFrame (busFrame 0 (s.m.get .a 0x40020 0 4) 0x02 s.m.bus.seqNo p) ∈ t.m.out ∧
          p.length = 8 ∧ numAt p 0 1 = s.m.seqState ∧ numAt p 3 1 = s.m.stepCount))) ∧
  (∀ (s : State) step count, s.m.get .a 0x40020 0 4 ≠ 0 → s.m.hearsBus = true → 0 < s.m.stepCount → s.m.seqState = 0 →
    s.m.bus.returning = true → s.m.bus.lastHb = some (2, step) →
    Gives (.heartbeat (s.m.get .a 0x40020 0 4) 2 step count) s (fun t => t.m.seqState = 1 ∧ t.m.curStep = 0 ∧ t.m.bus.returning = false)) ∧
  (∀ (s : State) polled step count, s.m.get .a 0x40020 0 4 ≠ 0 → s.m.hearsBus = true → 0 < s.m.stepCount →
    s.m.seqState = 0 → (∃ p, s.m.bus.lastHb = some p ∧ p ≠ (1, step)) →
    Gives (.heartbeat polled 1 step count) s (fun t => t.m.seqState = 1 ∧ t.m.curStep = 0 ∧ t.m.bus.grouped = true)) ∧
  (∀ (s : State) src state cur flags n serial, s.m.isMaster = true → s.m.hearsBus = true → src < 16 → hasBit (s.m.get .a 0x40020 16 16) src = true →
    s.m.bus.grouped = false → hasBit flags 2 = false → hasBit flags 3 = false → bitOf (s.m.rd .a 0x40004) 23 = false →
    Gives (.status src state cur flags n serial) s (fun t => bitOf (t.m.rd .a 0x40024) (16 + src) = true ∧
      hasBit t.m.bus.missing src = false ∧ tabFind t.m.bus.serials src = some serial ∧ t.m.OnlyRegs s.m [0x40024] ∧
      ((∃ old, tabFind s.m.bus.serials src = some old ∧ old ≠ serial) →
        bitOf (t.m.rd .a 0x40024) 14 = true ∧ t.m.Pending 2 ∧ t.m.Logged s.m 0 src 0x020B 3))) ∧
  (∀ s : State, s.m.isMaster = true → s.m.hearsBus = true → s.m.bus.polled < 16 → hasBit (s.m.get .a 0x40020 16 16) s.m.bus.polled = true →
    s.m.bus.grouped = false → bitOf (s.m.rd .a 0x40004) 23 = false →
    (tabGet 0 s.m.bus.unanswered s.m.bus.polled = 2 → Gives .pollUnanswered s (fun t =>
      bitOf (t.m.rd .a 0x40024) (16 + s.m.bus.polled) = false ∧ hasBit t.m.bus.missing s.m.bus.polled = true ∧ t.m.Pending 2 ∧
      t.m.Logged s.m 0 s.m.bus.polled 0x020A 2)) ∧
    (tabGet 0 s.m.bus.unanswered s.m.bus.polled ≠ 2 → Gives .pollUnanswered s (fun t =>
      tabGet 0 t.m.bus.unanswered s.m.bus.polled = tabGet 0 s.m.bus.unanswered s.m.bus.polled + 1 ∧ t.m.OnlyRegs s.m []))) ∧
  (∀ (s : State) frame, s.m.onBus = true → s.m.hearsBus = true → frameBad frame = true →
    Gives (.badFrame frame) s (fun t => t.m.get .a 0x40024 0 8 = min 255 (s.m.get .a 0x40024 0 8 + 1) ∧ t.m.OnlyRegs s.m [0x40024] ∧
      t.m.shell = s.tick.shell ∧ t.m.log = s.m.log)) ∧
  (∀ s : State, s.m.isSlave = true → s.m.hearsBus = true → Gives .masterLost s (fun t => bitOf (t.m.rd .a 0x40024) 15 = false ∧ t.m.bus.heard = false ∧
    (s.m.seqState = 1 → t.m.seqState ≠ 1))) ∧
  (∀ s : State, s.m.hearsBus = false → Gives .masterLost s (fun t => t.m = s.tick) ∧ Gives .pollUnanswered s (fun t => t.m = s.tick) ∧
    ∀ polled state step count, Gives (.heartbeat polled state step count) s (fun t => t.m = s.tick))

/-- What the commands of the jobs and pages group answer and do. In every state that accepts them, JOB_DEFINE defines the job of its
payload, JOB_READ answers a job's state and counts and changes nothing, JOB_DELETE removes a job, PAGE_QUEUE puts its descriptor at the
end of the job's queue (ending an endless one on the same compare unit) and answers the queue's length, PAGE_WITHDRAW takes a descriptor
that has not started from the queue, or the uncommitted pages of that number out of flight, JOB_END drains (and with no page in flight
ends the job at once with its counts), JOB_ABORT closes every page and ends the job at once with its counts, and JOB_ARM, once its
screening sets are read, arms the job with an empty host feed. -/
def Obligations.JobGroupServed : Prop :=
  Served .jobDefine planJobDefine (fun _ _ => [])
    (becomes fun msg m => { m with jobs := tabPut m.jobs (numAt msg.payload 0 4) (newJob msg.payload) }) ∧
  Served .jobRead planJobRead
    (fun msg m => match tabFind m.jobs (numAt msg.payload 0 4) with
      | none => []
      | some j => ([if m.armed = numAt msg.payload 0 4 then engCode m.eng else 1, j.triggered, j.committed, j.completed, j.withdrawn,
          j.good, j.reject, j.void]).flatMap (leBytes 4)) unchanged ∧
  Served .jobDelete planJobDelete (fun _ _ => [])
    (becomes fun msg m => { m with jobs := tabErase m.jobs (numAt msg.payload 0 4) }) ∧
  Served .pageQueue planPageQueue
    (fun msg m => leBytes 4 (((tabFind m.jobs (numAt msg.payload 0 4)).map
      (fun j => (j.enqueue (newDesc msg.payload)).queue.length)).getD 0))
    (fun msg m t => t.jobs = tabUpd m.jobs (numAt msg.payload 0 4) (fun j => j.enqueue (newDesc msg.payload)) ∧
      t.pages = m.pages ∧ t.eng = m.eng ∧ t.planes = m.planes ∧ t.OnlyRegs m [] ∧ t.log = m.log) ∧
  Served .pageWithdraw planPageWithdraw (fun _ _ => [])
    (becomes fun msg m => { m with
      jobs := tabUpd m.jobs (numAt msg.payload 0 4)
        (fun j => { j with queue := j.queue.filter (fun d => d.pageNo != numAt msg.payload 4 4) }) })
    (fun msg m => ∀ e ∈ m.pages, e.2.job = numAt msg.payload 0 4 → e.2.pageNo = numAt msg.payload 4 4 → e.2.committed = true) ∧
  Served .pageWithdraw planPageWithdraw (fun _ _ => [])
    (fun msg m t => ∀ e ∈ m.pages, e.2.job = numAt msg.payload 0 4 → e.2.pageNo = numAt msg.payload 4 4 → e.2.committed = false →
      tabFind t.pages e.1 = none)
    (fun msg m => ∃ e ∈ m.pages, e.2.job = numAt msg.payload 0 4 ∧ e.2.pageNo = numAt msg.payload 4 4 ∧ e.2.committed = false) ∧
  Started .jobEnd (fun msg m => planEnding msg m (.jobEnd (numAt msg.payload 0 4)) Mach.endJob)
    (fun msg _ => .jobEnd (numAt msg.payload 0 4))
    (fun _ m t => t.eng = .draining ∧ t.armed = m.armed ∧ t.pages = m.pages ∧ t.Pending 1) (fun _ m => m.pages ≠ []) ∧
  Served .jobEnd (fun msg m => planEnding msg m (.jobEnd (numAt msg.payload 0 4)) Mach.endJob)
    (fun msg m => m.jobCounts (numAt msg.payload 0 4))
    (fun _ m t => t.eng = .configured ∧ t.armed = 0 ∧ t.pages = [] ∧ t.feed = [] ∧ t.jobs = m.jobs) (fun _ m => m.pages = []) ∧
  Served .jobAbort (fun msg m => planEnding msg m (.jobAbort (numAt msg.payload 0 4)) Mach.abortJob)
    (fun msg m => (m.closePages fFaulted (fFaulted ||| fWithdrawn)).jobCounts (numAt msg.payload 0 4))
    (fun _ _ t => t.eng = .configured ∧ t.armed = 0 ∧ t.pages = [] ∧ t.feed = []) ∧
  (∀ (msg : Msg) (s : State) j, tabFind s.m.jobs (numAt msg.payload 0 4) = some j →
    s.tick.accepts { cmdJobArm with states := inCAPDF } msg {} = true →
    (readSets j (s.img, s.tick)).1.2.takes cmdJobArm msg (planJobArm msg (some (readSets j (s.img, s.tick)).2)) →
    Gives (.jobArm msg) s (fun t => t.m.eng = .armed ∧ t.m.armed = numAt msg.payload 0 4 ∧ t.m.feed = [] ∧ t.m.Pending 1 ∧
      t.m.rdA 0x50000C = 0 ∧ t.m.rdA 0x500010 = 0x7FFFFFFF ∧ t.m.rdA 0x500014 = 0 ∧ t.m.token = s.m.token ∧
      t.m.answers 0x0302 msg s.m.token stOk 0 [] ∧ t.pending = s.pending))

/-- What the commands of the image memory group answer and do. In every state that accepts them, MEM_ALLOC takes a region of whole 64 KiB
units inside one free block (which block, where in it and which identifier is open), MEM_FREE and PLANE_DELETE remove their object,
MEM_READ_STAT answers the free space of a side and changes nothing, PLANE_DEFINE defines a plane in its region (a codec plane once the
first header has been read) and PLANE_ENCODE joins the encoder's queue and waits. -/
def Obligations.ImageMemoryGroupServed : Prop :=
  (∀ (msg : Msg) (s : State) c, mailRow (.memAlloc msg) = some (c, msg) → s.tick.takes c msg (planMemAlloc msg) →
    Gives (.memAlloc msg) s (fun t => ∃ id off b, b ∈ s.m.freeBlocks ∧ off % 65536 = 0 ∧ 65536 * b.1 ≤ off ∧
      off + 65536 * ceilDiv (numAt msg.payload 0 8) 65536 ≤ 65536 * (b.1 + b.2) ∧
      t.m.answers 0x0401 msg s.m.token stOk 0 (leBytes 4 id ++ leBytes 8 off) ∧
      t.m.AsIf { s.tick with
        regions := tabPut s.m.regions id { off := off, bytes := 65536 * ceilDiv (numAt msg.payload 0 8) 65536 } } ∧
      t.img = s.img)) ∧
  Served .memFree planMemFree (fun _ _ => [])
    (becomes fun msg m => { m with regions := tabErase m.regions (numAt msg.payload 0 4) }) ∧
  Served .planeDelete planPlaneDelete (fun _ _ => [])
    (becomes fun msg m => { m with planes := tabErase m.planes (numAt msg.payload 0 4) }) ∧
  Served .memReadStat
    (fun msg t =>
      let d := affinitySide msg
      { reply := leBytes 8 (65536 * (t.freeBlocks.map Prod.snd).foldl (· + ·) 0) ++ leBytes 8 (65536 * t.largestFree) ++
          leBytes 2 (t.get d mgtStat 0 16) ++ leBytes 2 (t.get d 0x300004 0 16) ++ wordBytes (t.rd d 0x300008) })
    (fun msg m => leBytes 8 (65536 * (m.freeBlocks.map Prod.snd).foldl (· + ·) 0) ++ leBytes 8 (65536 * m.largestFree) ++
      leBytes 2 (m.get (affinitySide msg) 0x10000 0 16) ++ leBytes 2 (m.get (affinitySide msg) 0x300004 0 16) ++
      wordBytes (m.rd (affinitySide msg) 0x300008)) unchanged ∧
  Served .planeDefine (fun msg => planPlaneDefine msg none) (fun _ m => leBytes 4 (m.newId m.planes 704))
    (becomes fun msg m => { m with
      planes := tabPut m.planes (m.newId m.planes 704)
        { region := numAt msg.payload 0 4, off := m.planeAt msg, codec := false, width := numAt msg.payload 14 2,
          lines := numAt msg.payload 16 4, bytes := numAt msg.payload 20 4 } })
    (fun msg _ => numAt msg.payload 12 1 = 0) ∧
  (∀ (msg : Msg) (s : State), numAt msg.payload 12 1 = 1 →
    s.tick.accepts cmdPlaneDefine msg (planPlaneDefine msg none s.tick) = true →
    (readOnSides (s.tick.planeAt msg) 32 (s.img, s.tick)).1.2.takes cmdPlaneDefine msg
      (planPlaneDefine msg (some (readOnSides (s.tick.planeAt msg) 32 (s.img, s.tick)).2)) →
    Gives (.planeDefine msg) s (fun t => ∃ id, t.m.answers 0x0403 msg s.m.token stOk 0 (leBytes 4 id) ∧
      tabFind t.m.planes id = some { region := numAt msg.payload 0 4, off := s.tick.planeAt msg, codec := true
                                     width := numAt msg.payload 14 2, lines := numAt msg.payload 16 4
                                     bytes := numAt msg.payload 20 4 } ∧
      (∀ k, k ≠ id → tabFind t.m.planes k = tabFind s.m.planes k) ∧ t.m.jobs = s.m.jobs ∧ t.m.regions = s.m.regions)) ∧
  Started .planeEncode planPlaneEncode (fun _ _ => .planeEncode)
    (fun msg m t => (∃ x j, tabFind m.planes (numAt msg.payload 0 4) = some x ∧ t.encodes = m.encodes ++ [j] ∧ j.src = x ∧
        j.tag = msg.tag ∧ j.region = numAt msg.payload 4 4 ∧ j.cfg = m.rdA 0x400000) ∧
      t.planes = m.planes ∧ t.regions = m.regions ∧ t.OnlyRegs m [0x20000, 0x20004])

/-- What the commands of the templates and fields group answer and do. In every state that accepts them, TPL_LOAD and GLYPH_LOAD hold the
bytes of their host buffer as a template set under a new identifier and as the glyph store named, TPL_DELETE removes a set, COUNTER_SET
sets NEXT of a counter (with a new epoch when it goes back), COUNTER_READ answers NEXT, CONSUMED and COMMITTED and changes nothing,
LOT_SET holds the bytes of a lot, and FEED_SUBMIT appends to the host feed the entries in order up to the first that fails or the feed's
room, and answers their number; nothing else changes. -/
def Obligations.FieldGroupServed : Prop :=
  Served .tplLoad planTplLoad (fun _ m => leBytes 4 (m.newId m.tpls 710))
    (becomes fun msg m => { m with
      tpls := tabPut m.tpls (m.newId m.tpls 710) { bytes := (hostBuf msg 0).getD [], damaged := false } }) ∧
  Served .tplDelete planTplDelete (fun _ _ => [])
    (becomes fun msg m => { m with tpls := tabErase m.tpls (numAt msg.payload 0 4) }) ∧
  Served .glyphLoad planGlyphLoad (fun _ _ => [])
    (becomes fun msg m => { m with
      glyphs := tabPut m.glyphs (numAt msg.payload 0 4) { bytes := (hostBuf msg 4).getD [], damaged := false } }) ∧
  Served .counterSet planCounterSet (fun _ _ => [])
    (fun msg m t => t.AsIf { m with counters := t.counters } ∧
      (∀ k, k ≠ numAt msg.payload 0 4 → tabFind t.counters k = tabFind m.counters k) ∧
      (t.counterOf (numAt msg.payload 0 4)).next = numAt msg.payload 8 8 ∧
      (t.counterOf (numAt msg.payload 0 4)).exhausted = false ∧
      ((m.counterOf (numAt msg.payload 0 4)).restarts (numAt msg.payload 8 8) = true →
        (t.counterOf (numAt msg.payload 0 4)).epoch = (m.counterOf (numAt msg.payload 0 4)).epoch + 1 ∧
        (t.counterOf (numAt msg.payload 0 4)).consumed = none ∧ (t.counterOf (numAt msg.payload 0 4)).committed = none) ∧
      ((m.counterOf (numAt msg.payload 0 4)).restarts (numAt msg.payload 8 8) = false →
        (t.counterOf (numAt msg.payload 0 4)).epoch = (m.counterOf (numAt msg.payload 0 4)).epoch ∧
        (t.counterOf (numAt msg.payload 0 4)).consumed = (m.counterOf (numAt msg.payload 0 4)).consumed)) ∧
  Served .counterRead planCounterRead
    (fun msg m => leBytes 8 (m.counterOf (numAt msg.payload 0 4)).next ++
      leBytes 8 ((m.counterOf (numAt msg.payload 0 4)).consumed.getD 0xFFFFFFFFFFFFFFFF) ++
      leBytes 8 ((m.counterOf (numAt msg.payload 0 4)).committed.getD 0xFFFFFFFFFFFFFFFF)) unchanged ∧
  Served .lotSet planLotSet (fun _ _ => [])
    (becomes fun msg m => { m with lots := tabPut m.lots (numAt msg.payload 0 4) (msg.payload.drop 4) }) ∧
  (∀ (msg : Msg) (s : State) c bs, mailRow (.feedSubmit msg) = some (c, msg) → s.tick.takes c msg (planFeedSubmit msg) →
    hostBuf msg 0 = some bs →
    Gives (.feedSubmit msg) s (fun t => ∃ new,
      t.m.feed = s.m.feed ++ new ∧ t.m.feed.length ≤ max 8192 s.m.feed.length ∧ new.length ≤ bs.length / 256 ∧
      t.m.answers 0x0507 msg s.m.token stOk 0 (leBytes 4 new.length) ∧
      (∀ k x, new[k]? = some x → x.seq = ((tabFind s.m.jobs s.m.armed).map Job.feedSeq).getD 0 + 1 + k ∧
        feedEntry s.m.armed x.seq (((tabFind s.m.jobs s.m.armed).map Job.feedPages).getD .either) ((chunks 256 (bs.length / 256) bs).getD k []) = some x) ∧
      t.m.pages = s.m.pages ∧ t.m.OnlyRegs s.m [] ∧ t.m.log = s.m.log ∧ t.img = s.img))

/-- What the commands of the line tracking group answer and do. In every state that accepts them, ENC_CONFIG loads the four configuration
words of a channel and ends its fault, its substitution, its reference and its lock, STATION_OFFSET, CAP_CONFIG and REJ_CONFIG write their
registers, CMP_STOP disarms a unit, CMP_LOAD of a unit whose first position lies ahead loads its six words, sets NEXT and arms it, and
LTK_READ changes nothing (the layout of its 48 bytes is open); nothing else changes. -/
def Obligations.LineTrackingGroupServed : Prop :=
  Served .encConfig planEncConfig (fun _ _ => [])
    (fun msg m t =>
      let n := numAt msg.payload 0 4
      t.rdA (encBase n) = wordAt msg.payload 4 ∧ t.rdA (encBase n + 4) = wordAt msg.payload 8 ∧
      t.rdA (encBase n + 8) = wordAt msg.payload 12 ∧ t.rdA (encBase n + 0xC) = wordAt msg.payload 16 ∧
      t.bitA (encBase n + 0x24) 31 = false ∧ t.bitA (encBase n + 0x24) 30 = false ∧ t.bitA (encBase n + 0x24) 29 = false ∧
      t.bitA (encBase n + 0x24) 23 = false ∧ (t.encOf n).subOffset = 0 ∧ (t.encOf n).held = none ∧
      (t.encOf n).count = (m.encOf n).count ∧ (∀ k, k ≠ n → t.encOf k = m.encOf k) ∧
      t.OnlyRegs m [encBase n, encBase n + 4, encBase n + 8, encBase n + 0xC, encBase n + 0x24]) ∧
  Served .stationOffset planStationOffset (fun _ _ => [])
    (becomes fun msg m => m.wrB (0xD03800 + 4 * numAt msg.payload 0 4) (BitVec.ofNat 32 (numAt msg.payload 4 4))) ∧
  Served .cmpLoad planCmpLoad (fun _ _ => [])
    (fun msg m t =>
      let r := cmpBase (numAt msg.payload 0 4)
      (∀ i, i < 6 → t.rdA (r + 4 * i) = wordAt msg.payload (4 + 4 * i)) ∧ t.rdA64 (r + 0x18) = intAt msg.payload 4 8 ∧
      t.bitA (r + 0x24) 31 = true ∧ t.bitA (r + 0x24) 30 = false ∧
      t.OnlyRegs m [r, r + 4, r + 8, r + 0xC, r + 0x10, r + 0x14, r + 0x18, r + 0x1C, r + 0x24] ∧
      t.shell.noTags = m.shell.noTags ∧ t.log = m.log)
    (fun msg m => m.encPos (fieldOf (wordAt msg.payload 24) 30 2) < intAt msg.payload 4 8) ∧
  Served .cmpStop planCmpStop (fun _ _ => []) (becomes fun msg m => m.setB (cmpBase (numAt msg.payload 0 4) + 0x24) 31 false) ∧
  Served .capConfig planCapConfig (fun _ _ => [])
    (becomes fun msg m => m.wrB (0xD02000 + 0x20 * numAt msg.payload 0 4) (wordAt msg.payload 4)) ∧
  Served .rejConfig planRejConfig (fun _ _ => [])
    (becomes fun msg m =>
      ((m.wrB (0xD03000 + 0x20 * numAt msg.payload 0 4) (wordAt msg.payload 4)).wrB
        (0xD03004 + 0x20 * numAt msg.payload 0 4) (wordAt msg.payload 8)).wrB
        (0xD03008 + 0x20 * numAt msg.payload 0 4) (wordAt msg.payload 12)) ∧
  Served .ltkRead planLtkRead
    (fun msg m => bytesAt (Config.ltkRead (m.encPos (numAt msg.payload 0 4)) (m.rdA (encBase (numAt msg.payload 0 4) + 0x20))
      (m.rdA (encBase (numAt msg.payload 0 4) + 0x24), m.rdA (encBase (numAt msg.payload 0 4) + 0x28))
      ((List.range 16).map (fun u => (m.rdA (cmpBase u + 0x20)).toNat))) 0 48) unchanged

/-- Encoder edges, index pulses, a lost signal and the 10 µs tick with the line at rest. While the control domain runs and the line is at
rest: ENC_COUNT moves ENC_COUNT of its channel by the step that its edges give (turned by INVERT), says whether it counts forward and
clears LOS, and edges that give no step change nothing; INDEX_PULSE of a channel that counts forward with index checking on takes the
reference, or measures the distance, which is good within the tolerance and otherwise sets INDEX_ERR and raises event 58; ENC_LOS sets LOS
and FAULT and raises event 60; LTK_TICK holds the speeds observed and whether IO24_IN is there, which the reject outputs follow (they are
operands of the event). -/
def Obligations.EncoderEvents : Prop :=
  (∀ (s : State) ch a b h, s.m.tracking = true → ch < 4 → s.m.lineIdle →
    edgeStep (s.m.getA (encBase ch) 0 2) a b h ≠ 0 →
    Gives (.encCount ch a b h) s (fun t =>
      (t.m.encOf ch).count = (s.m.encOf ch).count + (if s.m.bitA (encBase ch) 2 then -1 else 1) * edgeStep (s.m.getA (encBase ch) 0 2) a b h ∧
      ((t.m.encOf ch).forward = true ↔
        0 < (if s.m.bitA (encBase ch) 2 then -1 else 1) * edgeStep (s.m.getA (encBase ch) 0 2) a b h) ∧
      t.m.bitA (encBase ch + 0x24) 28 = false ∧ (∀ k, k ≠ ch → (t.m.encOf k).count = (s.m.encOf k).count) ∧
      t.m.pages = s.m.pages ∧ t.m.eng = s.m.eng ∧ t.m.OnlyRegs s.m [0xD00024, 0xD00124, 0xD00224, 0xD00324] ∧ t.img = s.img)) ∧
  (∀ (s : State) ch a b h, s.m.tracking = true → ch < 4 → edgeStep (s.m.getA (encBase ch) 0 2) a b h = 0 →
    Gives (.encCount ch a b h) s (fun t => t.m = s.tick ∧ t.img = s.img)) ∧
  (∀ (s : State) ch, s.m.tracking = true → ch < 4 → s.m.lineIdle → s.m.bitA (encBase ch) 13 = true →
    s.m.rdA (encBase ch + 8) ≠ 0 → (s.m.encOf ch).forward = true →
    (s.m.bitA (encBase ch + 0x24) 23 = false → Gives (.indexPulse ch) s (fun t => t.m.bitA (encBase ch + 0x24) 23 = true ∧
      (t.m.encOf ch).refPos = s.m.encPos ch ∧ t.m.OnlyRegs s.m [encBase ch + 0x24] ∧ t.m.log = s.m.log)) ∧
    (s.m.bitA (encBase ch + 0x24) 23 = true →
      (s.m.encPos ch - (s.m.encOf ch).refPos - ((s.m.rdA (encBase ch + 8)).toNat : Int)).natAbs ≤ s.m.getA (encBase ch + 0xC) 0 16 →
      Gives (.indexPulse ch) s (fun t =>
        t.m.rdA (encBase ch + 0x28) = BitVec.ofInt 32 (s.m.encPos ch - (s.m.encOf ch).refPos) ∧
        (t.m.encOf ch).indexBad = false ∧ (t.m.encOf ch).refPos = s.m.encPos ch ∧ t.m.OnlyRegs s.m [encBase ch + 0x28] ∧
        t.m.log = s.m.log)) ∧
    (s.m.bitA (encBase ch + 0x24) 23 = true →
      ¬ (s.m.encPos ch - (s.m.encOf ch).refPos - ((s.m.rdA (encBase ch + 8)).toNat : Int)).natAbs ≤ s.m.getA (encBase ch + 0xC) 0 16 →
      Gives (.indexPulse ch) s (fun t => t.m.bitA (encBase ch + 0x24) 26 = true ∧ (t.m.encOf ch).indexBad = true ∧ t.m.Pending 58))) ∧
  (∀ (s : State) ch, s.m.tracking = true → ch < 4 → s.m.lineIdle →
    (s.m.getA (encBase ch) 0 2 = 1 ∨ s.m.getA (encBase ch) 0 2 = 2 ∨ s.m.bitA (encBase ch) 13 = true) → s.m.bitA (encBase ch + 0x24) 29 = false →
    Gives (.encLos ch) s (fun t => t.m.bitA (encBase ch + 0x24) 28 = true ∧ t.m.bitA (encBase ch + 0x24) 29 = true ∧ t.m.Pending 60 ∧
      (s.m.bitA (encBase ch) 19 = true → s.m.backupOf ch ≠ ch → s.m.encHealthy (s.m.backupOf ch) = true →
        s.m.bitA (encBase ch + 0x24) 30 = false → (t.m.encOf ch).subPend = true))) ∧
  (∀ (s : State) speeds ipos io24, s.m.tracking = true → s.m.lineIdle → (∀ n, (s.m.encOf n).subPend = false) →
    Gives (.ltkTick speeds ⟨ipos, io24⟩) s (fun t =>
      (∀ n v, n < 4 → speeds[n]? = some v → t.m.rdA (encBase n + 0x20) = BitVec.ofInt 32 v) ∧ t.m.io24 = io24 ∧
      (io24 ≠ s.m.io24 → ∀ j, j < 8 → (t.m.bitA (0xD0300C + 0x20 * j) 31 = true ↔
        0 < (s.m.rejOf j).running ∧ (s.m.rejOf j).overload = false ∧ io24 = true))))

/-- Capture inputs and reject outputs. While the control domain runs and IO24_IN is there, CAPTURE_EDGE latches the position at the edge
on every side in service, or, when the edge is one that the input captures and 8 entries wait there, loses it, sets OVERFLOW and raises
event 62; CAPTURE_FILTER_END takes what is latched into the FIFO of a side with event 62 when the level held and the edge is one it
captures, and otherwise drops it; without IO24_IN nothing is captured. CAP_POP and POP written to CAP_STAT take the oldest entry away.
REJECT_PULSE_END ends one pulse, REJECT_OVERLOAD of an output that is on switches it off and raises event 60, REJECT_RETRY lets it work
again; REJ_STAT.ON follows the pulses that run, the overload and the supply. -/
def Obligations.CaptureAndRejectEvents : Prop :=
  (∀ (s : State) k rising d, s.m.tracking = true → s.m.io24 = true → k < 16 → s.m.inService d = true →
    Gives (.captureEdge k rising) s (fun t => (∀ x j, j < 16 → j ≠ k → t.m.capOf x j = s.m.capOf x j) ∧
      t.m.OnlyRegs s.m [0xD02004 + 0x20 * k] ∧
      (edgeTaken (s.m.getA (0xD02000 + 0x20 * k) 0 2) rising = false ∨ (s.m.capOf d k).fifo.length < 8 →
        t.m.capOf d k = { s.m.capOf d k with pend := some (rising, some (s.m.encPos (s.m.getA (0xD02000 + 0x20 * k) 2 2))) } ∧
        t.m.rd d (0xD02004 + 0x20 * k) = s.m.rd d (0xD02004 + 0x20 * k)) ∧
      (edgeTaken (s.m.getA (0xD02000 + 0x20 * k) 0 2) rising = true → 8 ≤ (s.m.capOf d k).fifo.length →
        t.m.capOf d k = { s.m.capOf d k with pend := some (rising, none) } ∧
        bitOf (t.m.rd d (0xD02004 + 0x20 * k)) 30 = true ∧ (t.m.side d).evt.pend.getLsbD 62 = true))) ∧
  (∀ (s : State) k rising, s.m.io24 = false → Gives (.captureEdge k rising) s (fun t => t.m = s.tick)) ∧
  (∀ (s : State) k held d rising pos, s.m.tracking = true → k < 16 → s.m.inService d = true →
    (s.m.capOf d k).pend = some (rising, some pos) →
    ((held = false ∨ s.m.io24 = false ∨ edgeTaken (s.m.getA (0xD02000 + 0x20 * k) 0 2) rising = false) →
      Gives (.captureFilterEnd k held) s (fun t => (t.m.capOf d k).pend = none ∧ (t.m.capOf d k).fifo = (s.m.capOf d k).fifo)) ∧
    (held = true → s.m.io24 = true → edgeTaken (s.m.getA (0xD02000 + 0x20 * k) 0 2) rising = true →
      Gives (.captureFilterEnd k held) s (fun t =>
        t.m.capOf d k = ⟨rising, none, (s.m.capOf d k).fifo ++ [pos]⟩ ∧ (t.m.side d).evt.pend.getLsbD 62 = true))) ∧
  (∀ (s : State) k held d rising, s.m.tracking = true → k < 16 → s.m.inService d = true →
    (s.m.capOf d k).pend = some (rising, none) → Gives (.captureFilterEnd k held) s (fun t =>
      (t.m.capOf d k).pend = none ∧ (t.m.capOf d k).fifo = (s.m.capOf d k).fifo)) ∧
  (∀ (s : State) d k, s.m.inService d = true → k < 16 → Gives (.capPop d k) s (fun t =>
    (t.m.capOf d k).fifo = (s.m.capOf d k).fifo.tail ∧ t.m.Like { s.tick with caps := t.m.caps } ∧ t.m.log = s.m.log)) ∧
  (∀ (s : State) d k v, s.m.bar0On d (0xD02004 + 0x20 * k) = true → k < 16 → bitOf v 29 = true →
    Gives (.registerWrite d .bar0 (0xD02004 + 0x20 * k) [(15, v)]) s (fun t => (t.m.capOf d k).fifo = (s.m.capOf d k).fifo.tail ∧
      t.m.OnlyRegs s.m [0xD02004 + 0x20 * k])) ∧
  (∀ (s : State) j, 0 < (s.m.rejOf j).running → Gives (.rejectPulseEnd j) s (fun t =>
    t.m.rejOf j = { s.m.rejOf j with running := (s.m.rejOf j).running - 1 } ∧
    (t.m.bitA (0xD0300C + 0x20 * j) 31 = true ↔
      (1 < (s.m.rejOf j).running ∨ (s.m.rejOf j).heldOn = true) ∧ (s.m.rejOf j).overload = false ∧ s.m.io24 = true) ∧
    t.m.OnlyRegs s.m [0xD0300C + 0x20 * j] ∧ t.m.log = s.m.log)) ∧
  (∀ (s : State) j, j < 8 → s.m.bitA (0xD0300C + 0x20 * j) 31 = true → Gives (.rejectOverload j) s (fun t =>
    (t.m.rejOf j).overload = true ∧ t.m.bitA (0xD0300C + 0x20 * j) 31 = false ∧ t.m.bitA (0xD0300C + 0x20 * j) 30 = true ∧
    t.m.OnlyRegs s.m [0xD0300C + 0x20 * j] ∧ t.m.Pending 60 ∧ t.m.Logged s.m 0x0D j 0x000B 2)) ∧
  (∀ (s : State) j, (s.m.rejOf j).overload = true → Gives (.rejectRetry j) s (fun t =>
    t.m.rejOf j = { s.m.rejOf j with overload := false } ∧
    (t.m.bitA (0xD0300C + 0x20 * j) 31 = true ↔ (0 < (s.m.rejOf j).running ∨ (s.m.rejOf j).heldOn = true) ∧ s.m.io24 = true) ∧
    t.m.OnlyRegs s.m [0xD0300C + 0x20 * j] ∧ t.m.log = s.m.log))

/-- What the commands of the motion group answer and do. In every state that accepts them, MOTOR_CONFIG loads a motor's eleven words,
clears its faults and leaves it OFF; MOTOR_SPEED sets its source and value and starts a motor that is off (an encoder motor runs, a
polygon listens first) or keeps running one that stops; MOTOR_STOP of a running motor makes it ramp down, of one that starts switches it
off; of a moving axis it brakes and waits; STP_CONFIG loads an axis' seven words and clears its faults; STP_MOVE of an axis that has to
move waits with its target, at the target it is answered at once, and of an axis locked in FAULT with DETAIL 8; STP_GEAR arms a change or,
at once, gears the axis; MOTION_READ changes nothing. -/
def Obligations.MotionGroupServed : Prop :=
  Served .motorConfig planMotorConfig (fun _ _ => [])
    (fun msg m t =>
      let n := numAt msg.payload 0 4
      (∀ k, k < 11 → t.rdA (mdrBase n + 0x100 + 4 * k) = wordAt msg.payload (4 + 4 * k)) ∧ t.motorState n = 0 ∧
      t.rdA (mdrBase n + 4) = 0 ∧ t.faultInst 0x08 0 n = ⟨0, false⟩ ∧ t.faultInst 0x09 0 n = ⟨0, false⟩ ∧
      t.faultInst 0x0A 0 n = ⟨0, false⟩ ∧ (8 ≤ n → t.facets (n - 8) = numAt msg.payload 5 1) ∧ t.eng = m.eng ∧ t.jobs = m.jobs) ∧
  Served .motorSpeed planMotorSpeed (fun _ _ => [])
    (fun msg m t =>
      let n := numAt msg.payload 0 4
      t.getA (mdrBase n) 24 3 = numAt msg.payload 4 4 ∧ (t.motorOf n).value = intAt msg.payload 8 4 ∧
      (m.motorState n = 0 → t.motorState n = if n < 8 then 4 else 3) ∧ (m.motorState n = 5 → t.motorState n = 4) ∧
      (m.motorState n ≠ 0 → m.motorState n ≠ 5 → t.motorState n = m.motorState n) ∧
      (∀ k, k ≠ n → t.motorOf k = m.motorOf k) ∧ t.eng = m.eng ∧ t.jobs = m.jobs) ∧
  Served .motorStop planMotorStop (fun _ _ => [])
    (fun msg m t =>
      let n := numAt msg.payload 0 4
      (m.motorState n = 4 → t.motorState n = 5) ∧
      (m.motorState n = 1 ∨ m.motorState n = 2 ∨ m.motorState n = 3 → t.motorState n = 0 ∧ t.bitA (mdrBase n) 10 = true) ∧
      (m.motorState n = 0 ∨ m.motorState n = 5 ∨ m.motorState n = 6 → t.AsIf m))
    (fun msg _ => numAt msg.payload 0 4 < 256) ∧
  Started .motorStop planMotorStop (fun msg _ => .stpStop (numAt msg.payload 0 4 - 256))
    (fun msg _ t => t.stepState (numAt msg.payload 0 4 - 256) = 4)
    (fun msg m => 256 ≤ numAt msg.payload 0 4 ∧ (m.stepOf (numAt msg.payload 0 4 - 256)).ivl ≠ 0 ∧
      (m.stepState (numAt msg.payload 0 4 - 256) = 2 ∨ m.stepState (numAt msg.payload 0 4 - 256) = 3)) ∧
  Served .stpConfig planStpConfig (fun _ _ => [])
    (fun msg m t =>
      let n := numAt msg.payload 0 4
      (∀ k, k < 7 → t.rdA (stpBase n + 0x40 + 4 * k) = wordAt msg.payload (4 + 4 * k)) ∧ t.rdA (stpBase n + 4) = 0 ∧
      t.faultInst 0x0D 0 n = ⟨0, false⟩ ∧ t.faultInst 0x0E 0 n = ⟨0, false⟩ ∧
      t.stepState n = (if m.stepState n = 5 then 0 else m.stepState n) ∧ t.drv = m.drv ∧ t.log = m.log) ∧
  Started .stpMove planStpMove (fun msg _ => .stpMove (numAt msg.payload 0 1))
    (fun msg m t =>
      let n := numAt msg.payload 0 1
      t.stepState n = 2 ∧
      (t.stepOf n).target = intAt msg.payload 4 8 + (if hasBit (numAt msg.payload 1 1) 0 then (m.stepOf n).pos else 0) ∧
      (t.stepOf n).speed = min (numAt msg.payload 12 4) (m.stpMax n) ∧ (t.stepOf n).acc = numAt msg.payload 16 4 ∧
      (t.stepOf n).jerk = numAt msg.payload 20 4 ∧ (t.stepOf n).pos = (m.stepOf n).pos)
    (fun msg m =>
      let n := numAt msg.payload 0 1
      (m.stepState n ≠ 5 ∨ m.stpLocked n = false) ∧ ((m.stepOf n).ivl ≠ 0 ∨
        intAt msg.payload 4 8 + (if hasBit (numAt msg.payload 1 1) 0 then (m.stepOf n).pos else 0) ≠ (m.stepOf n).pos)) ∧
  Served .stpMove planStpMove (fun _ _ => [])
    (fun msg m t => t.stepState (numAt msg.payload 0 1) = 1 ∧ t.Pending 90 ∧
      (t.stepOf (numAt msg.payload 0 1)).pos = (m.stepOf (numAt msg.payload 0 1)).pos)
    (fun msg m =>
      let n := numAt msg.payload 0 1
      m.stepState n ≠ 5 ∧ m.stepState n ≠ 3 ∧ (m.stepOf n).ivl = 0 ∧ hasBit (numAt msg.payload 1 1) 1 = false ∧
      m.awaits.all (fun w => !(w.kind == .stpMove n) && !(w.kind == .stpStop n)) = true ∧
      intAt msg.payload 4 8 + (if hasBit (numAt msg.payload 1 1) 0 then (m.stepOf n).pos else 0) = (m.stepOf n).pos) ∧
  (∀ (msg : Msg) (s : State) c, mailRow (.stpMove msg) = some (c, msg) → s.tick.takes c msg (planStpMove msg) →
    s.m.stepState (numAt msg.payload 0 1) = 5 → s.m.stpLocked (numAt msg.payload 0 1) = true →
    Gives (.stpMove msg) s (fun t => t.m.answers 0x0705 msg s.m.token stOk 8 [] ∧ t.m.Pending 90 ∧ t.m.drv = s.m.drv)) ∧
  Started .stpGear planStpGear (fun msg _ => .stpGear (numAt msg.payload 0 1))
    (fun msg m t =>
      let n := numAt msg.payload 0 1
      (t.stepOf n).pending = some ⟨numAt msg.payload 1 1, hasBit (numAt msg.payload 2 2) 0, hasBit (numAt msg.payload 2 2) 1,
        intAt msg.payload 4 4, numAt msg.payload 8 4, intAt msg.payload 12 8⟩ ∧
      t.bitA (stpBase n) 14 = true ∧ t.stepState n = m.stepState n ∧ (t.stepOf n).gear = (m.stepOf n).gear)
    (fun msg m =>
      let n := numAt msg.payload 0 1
      (m.stepState n ≠ 5 ∨ m.stpLocked n = false) ∧ hasBit (numAt msg.payload 2 2) 2 = false ∧
      m.encPos (numAt msg.payload 1 1) < intAt msg.payload 12 8) ∧
  Served .stpGear planStpGear (fun _ _ => [])
    (fun msg m t =>
      let n := numAt msg.payload 0 1
      t.stepState n = 3 ∧ t.Pending 94 ∧ (t.stepOf n).m0 = m.encPos (numAt msg.payload 1 1) ∧ (t.stepOf n).pending = none ∧
      (t.stepOf n).gear = some ⟨numAt msg.payload 1 1, true, hasBit (numAt msg.payload 2 2) 1, intAt msg.payload 4 4,
        numAt msg.payload 8 4, intAt msg.payload 12 8⟩)
    (fun msg m =>
      let n := numAt msg.payload 0 1
      (m.stepState n ≠ 5 ∨ m.stpLocked n = false) ∧ hasBit (numAt msg.payload 2 2) 0 = true ∧
      (hasBit (numAt msg.payload 2 2) 2 = true ∨ intAt msg.payload 12 8 ≤ m.encPos (numAt msg.payload 1 1))) ∧
  Served .motionRead planMotionRead
    (fun msg m => if hasBit (numAt msg.payload 0 4) 8 then m.stepReply (numAt msg.payload 0 4 % 256)
      else m.motorReply (numAt msg.payload 0 4 % 256)) unchanged

/-- How motors run, start and fail. MOTOR_TICK shows a motor's two phase currents and the bus voltage sampled. SPEED_RAMP_TICK ramps a
polygon that starts by min(ACC_LIM, 2000) up to 1500 rpm and moves the command of a running motor by at most ACC_LIM. MOTOR_OVERCURRENT
releases the bridge with event 84, and TRIP_RETRY resumes; a motor that MOTOR_STOP was bringing to rest goes on doing so. POLY_START_STEP
takes a polygon from listening to alignment to the start ramp, and to FAULT when 1500 rpm did not catch. BEMF_ZERO_CROSSING counts
agreeing crossings and at 18 the polygon runs with event 85; CATCH_SPIN_TIMEOUT waits for 200 ms without one. BISS_FRAME holds the
position of a good frame and counts a bad one; BISS_RETRY ends the wait; LOCKED_ROTOR faults the motor; SPEED_DEV shows the deviation with
event 86. Fault clauses are for a motor outside the armed job, whose engine the class would stop as well. -/
def Obligations.MotorEvents : Prop :=
  (∀ (s : State) n sample, s.m.hasMotor n = true → (s.m.motorState n = 0 ∨ n < 8) → Gives (.motorTick n sample) s (fun t =>
    t.m.rdA (mdrBase n + 0x18) = BitVec.ofNat 32 (unsignedOf 16 sample.iu * 65536 + unsignedOf 16 sample.iv) ∧
    t.m.getA 0xE08000 16 16 = min 65535 sample.vbus ∧ t.m.motorState n = s.m.motorState n)) ∧
  (∀ (s : State) n, s.m.hasMotor n = true → s.m.bitA (mdrBase n) 10 = false →
    (s.m.motorState n = 2 → Gives (.speedRampTick n) s (fun t =>
      (t.m.motorOf n).cmd = min ((s.m.motorOf n).cmd + (min (s.m.accLim n) 2000 : Nat)) 15000000 ∧ t.m.motorState n = 2 ∧
      t.m.rdA (mdrBase n + 8) = BitVec.ofInt 32 ((t.m.motorOf n).cmd / 625) ∧ t.m.log = s.m.log)) ∧
    (s.m.motorState n = 4 → Gives (.speedRampTick n) s (fun t => t.m.motorState n = 4 ∧
      (t.m.motorOf n).cmd ≤ (s.m.motorOf n).cmd + s.m.accLim n ∧ (s.m.motorOf n).cmd - s.m.accLim n ≤ (t.m.motorOf n).cmd ∧
      t.m.rdA (mdrBase n + 8) = BitVec.ofInt 32 ((t.m.motorOf n).cmd / 625) ∧ t.m.log = s.m.log))) ∧
  (∀ (s : State) n, s.m.hasMotor n = true → s.m.motorState n ≠ 0 → s.m.motorState n ≠ 6 → s.m.bitA (mdrBase n) 9 = false →
    Gives (.motorOvercurrent n) s (fun t => t.m.bitA (mdrBase n) 10 = true ∧ t.m.bitA (mdrBase n + 4) 1 = true ∧ t.m.Pending 84 ∧
      ((t.m.motorOf n).tripped = true ∨ t.m.motorState n = 6)) ∧
    Gives (.lockedRotor n) s (fun t => t.m.motorState n = 6 ∧ t.m.bitA (mdrBase n) 10 = true ∧ t.m.bitA (mdrBase n + 4) 0 = true ∧
      t.m.Pending 84)) ∧
  (∀ (s : State) n, (s.m.motorOf n).tripped = true → s.m.motorState n ≠ 0 → s.m.motorState n ≠ 6 → (s.m.motorOf n).clamped = false →
    Gives (.tripRetry n) s (fun t => (t.m.motorOf n).tripped = false ∧
      t.m.motorState n = (if 8 ≤ n then 3 else if s.m.motorState n = 5 then 5 else 4))) ∧
  (∀ (s : State) n, s.m.hasMotor n = true → 8 ≤ n → s.m.bitA (mdrBase n) 9 = false →
    (s.m.motorState n = 3 → (s.m.motorOf n).spin = false → Gives (.polyStartStep n) s (fun t => t.m.motorState n = 1 ∧
      t.m.bitA (mdrBase n) 10 = false)) ∧
    (s.m.motorState n = 1 → Gives (.polyStartStep n) s (fun t => t.m.motorState n = 2 ∧ (t.m.motorOf n).cmd = 0)) ∧
    (s.m.motorState n = 2 → (s.m.motorOf n).at1500 = true → Gives (.polyStartStep n) s (fun t => t.m.motorState n = 6 ∧
      t.m.bitA (mdrBase n + 4) 0 = true ∧ t.m.bitA (mdrBase n + 4) 4 = true ∧ t.m.Pending 84))) ∧
  (∀ (s : State) n agrees speed, s.m.hasMotor n = true → 8 ≤ n → s.m.motorState n = 3 → (s.m.motorOf n).quiet = false →
    ((if agrees then (s.m.motorOf n).crossings + 1 else 1) ≠ 18 → Gives (.bemfZeroCrossing n agrees speed) s (fun t =>
      (t.m.motorOf n).crossings = (if agrees then (s.m.motorOf n).crossings + 1 else 1) ∧ (t.m.motorOf n).spin = true ∧
      t.m.OnlyRegs s.m [] ∧ t.m.log = s.m.log)) ∧
    ((if agrees then (s.m.motorOf n).crossings + 1 else 1) = 18 → Gives (.bemfZeroCrossing n agrees speed) s (fun t =>
      t.m.motorState n = (if (s.m.motorOf n).stopping then 5 else 4) ∧ t.m.rdA (mdrBase n + 0xC) = BitVec.ofInt 32 speed ∧ (t.m.motorOf n).cmd = 625 * speed ∧
      t.m.bitA (mdrBase n) 10 = false ∧ t.m.Pending 85))) ∧
  (∀ (s : State) n, 8 ≤ n → s.m.motorState n = 3 →
    ((s.m.motorOf n).quiet = true → (s.m.motorOf n).seen = false → (s.m.motorOf n).stopping = false → Gives (.catchSpinTimeout n) s (fun t => t.m.motorState n = 1 ∧
      t.m.bitA (mdrBase n) 10 = false ∧ (t.m.motorOf n).spin = false)) ∧
    (s.m.hasMotor n = true → (s.m.motorOf n).quiet = true → (s.m.motorOf n).seen = false → (s.m.motorOf n).stopping = true →
      Gives (.catchSpinTimeout n) s (fun t => t.m.motorState n = 0 ∧ t.m.bitA (mdrBase n) 10 = true ∧ t.m.Pending 89)) ∧
    ((s.m.motorOf n).spin = true → ((s.m.motorOf n).quiet = false ∨ (s.m.motorOf n).seen = true) →
      Gives (.catchSpinTimeout n) s (fun t => t.m.motorOf n =
        { s.m.motorOf n with quiet := true, seen := false, crossings := 0 } ∧ t.m.OnlyRegs s.m [] ∧ t.m.log = s.m.log))) ∧
  (∀ (s : State) n, s.m.hasMotor n = true → n < 8 → (s.m.motorOf n).encWait = false →
    (∀ p, Gives (.bissFrame n (.good p)) s (fun t => (t.m.motorOf n).bissBad = 0 ∧ (t.m.motorOf n).raw = p ∧
      t.m.rdA (mdrBase n + 0x1C) = BitVec.ofInt 32 (bissPos p (fieldOf (s.m.mdrParam n 0) 8 8) (s.m.mdrFlags n / 32 % 32)) ∧
      t.m.log = s.m.log)) ∧
    (∀ f : BissFrame, (∀ p, f ≠ .good p) → (s.m.motorOf n).bissBad ≠ 3 → Gives (.bissFrame n f) s (fun t =>
      (t.m.motorOf n).bissBad = (s.m.motorOf n).bissBad + 1 ∧
      t.m.getA (mdrBase n + 0x28) 0 16 = min 65535 (s.m.getA (mdrBase n + 0x28) 0 16 + 1) ∧ t.m.log = s.m.log)) ∧
    (∀ f : BissFrame, (∀ p, f ≠ .good p) → (s.m.motorOf n).bissBad = 3 → s.m.bitA (mdrBase n) 9 = false →
      Gives (.bissFrame n f) s (fun t => t.m.bitA (mdrBase n) 10 = true ∧ t.m.bitA (mdrBase n + 4) 3 = true ∧ t.m.Pending 84))) ∧
  (∀ (s : State) n, (s.m.motorOf n).encWait = true → Gives (.bissRetry n) s (fun t => (t.m.motorOf n).encWait = false ∧
    (n < 8 → s.m.motorState n ≠ 0 → s.m.motorState n ≠ 6 → (s.m.motorOf n).clamped = false →
      t.m.motorState n = (if s.m.motorState n = 5 then 5 else 4) ∧ t.m.bitA (mdrBase n) 10 = false))) ∧
  (∀ (s : State) n on, s.m.hasMotor n = true → s.m.motorState n = 4 → s.m.bitA (mdrBase n) 13 ≠ on → s.m.bitA (mdrBase n) 9 = false →
    Gives (.speedDev n on) s (fun t => t.m.bitA (mdrBase n) 13 = on ∧ t.m.Pending 86 ∧ t.m.motorState n = 4 ∧
      ∃ e ∈ t.m.log, e.unit = 0x0E ∧ e.inst = n ∧ e.code = (if on then 0x0007 else 0x0008)))

/-- The motor bus and its brake chopper. BUS_STAGE shows the bus voltage, sets CLAMP from 62.00 V and clears it at 60.00 V and below,
switches the chopper on from BRAKE_ON (or 1 V above the input) and off 1 V below it or while the chopper has failed, and enters
REGEN_INHIBIT from its threshold. CHOPPER_FAULT shows its fault, puts the chopper out of use and enters REGEN_INHIBIT with event 88.
BRAKE_LIMITED shows the limit and switches the chopper off with event 88. -/
def Obligations.MotorBusEvents : Prop :=
  (∀ (s : State) vbus vin, Gives (.busStage vbus vin) s (fun t =>
    t.m.getA 0xE08000 16 16 = min 65535 vbus ∧ (6200 ≤ vbus → t.m.bitA 0xE08000 11 = true) ∧
    (vbus ≤ 6000 → t.m.bitA 0xE08000 11 = false) ∧
    (s.m.bitA 0xE08000 14 = true → t.m.bitA 0xE08000 15 = false) ∧
    ((s.m.bitA 0xE08000 14 || s.m.bitA 0xE08000 13) = false →
      (max (10 * clampNat 520 600 (s.m.getA 0xE08004 0 10)) (vin + 100) ≤ vbus → t.m.bitA 0xE08000 15 = true) ∧
      (vbus + 100 ≤ max (10 * clampNat 520 600 (s.m.getA 0xE08004 0 10)) (vin + 100) → t.m.bitA 0xE08000 15 = false) ∧
      (s.m.bitA 0xE08000 12 = false → max 5800 (vin + 200) ≤ vbus → t.m.bitA 0xE08000 12 = true ∧ t.m.Pending 88) ∧
      (s.m.bitA 0xE08000 12 = false → vbus < max 5800 (vin + 200) → t.m.bitA 0xE08000 12 = false)))) ∧
  (∀ (s : State) short, Gives (.chopperFault short) s (fun t => t.m.bitA 0xE08008 (if short then 1 else 0) = true ∧
    t.m.bitA 0xE08000 14 = true ∧ t.m.bitA 0xE08000 15 = false ∧ t.m.bitA 0xE08000 12 = true ∧ t.m.Pending 88 ∧
    ∃ e ∈ t.m.log, e.unit = 0x0E ∧ e.code = (if short then 0x000D else 0x000C) ∧ e.severity = 3)) ∧
  (∀ s : State, (s.m.bitA 0xE08000 13 = false → Gives (.brakeLimited true) s (fun t => t.m.bitA 0xE08000 13 = true ∧
      t.m.bitA 0xE08000 15 = false ∧ t.m.Pending 88 ∧ t.m.Logged s.m 0x0E 0xFF 0x000E 1)) ∧
    (s.m.bitA 0xE08000 13 = true → Gives (.brakeLimited false) s (fun t => t.m.bitA 0xE08000 13 = false ∧
      t.m.OnlyRegs s.m [0xE08000, 0xE0800C] ∧ t.m.log = s.m.log)))

/-- How a stepper axis steps, homes, gears and fails. STEP_INTERVAL_END of a moving axis moves its position by a step in its direction and
counts it, and at a full step shows the load figure; HOME_EDGE of an axis that homes latches the position; HOLD_DELAY_END lowers the
current of an axis at rest; STP_BRIDGE_FAULT puts the axis in FAULT with event 92; GEAR_TICK of a geared axis shows the gear's target and
the clamped error, and LAG while the error exceeds the tolerance. The profile's arithmetic below a step has open last bits, which no
clause rests on. -/
def Obligations.StepperEvents : Prop :=
  (∀ (s : State) n, n < steppersOf s.m.part → (s.m.stepState n = 2 ∨ s.m.stepState n = 3 ∨ s.m.stepState n = 4) →
    (s.m.stepOf n).ivl ≠ 0 → (s.m.stepOf n).homing = none →
    ∀ load, Gives (.stepIntervalEnd n load) s (fun t =>
      (t.m.stepOf n).pos = (s.m.stepOf n).pos + (s.m.stepOf n).dir * s.m.stepSize n ∧
      t.m.rdA (stpBase n + 0x2C) = s.m.rdA (stpBase n + 0x2C) + 1 ∧ (∀ k, k ≠ n → t.m.stepOf k = s.m.stepOf k) ∧
      ∀ l, load = some l → ((s.m.stepOf n).pos + (s.m.stepOf n).dir * s.m.stepSize n) % 256 = 0 →
        t.m.rdA (stpBase n + 0x28) = BitVec.ofNat 32 (min 1023 l))) ∧
  (∀ (s : State) n, n < steppersOf s.m.part → Gives (.homeEdge n) s (fun t =>
    (s.m.stepState n = 2 → (s.m.stepOf n).home = true → (s.m.stepOf n).homing = none → (s.m.stepOf n).ivl ≠ 0 →
      (t.m.stepOf n).homing = some (s.m.stepOf n).pos) ∧
    (s.m.stepState n = 2 → (s.m.stepOf n).home = true → (s.m.stepOf n).homing = none → (s.m.stepOf n).ivl = 0 →
      (t.m.stepOf n).pos = 0 ∧ t.m.stepState n = 1 ∧ t.m.bitA (stpBase n) 15 = true ∧ t.m.Pending 95) ∧
    t.m.bitA (stpBase n) 9 = true)) ∧
  (∀ (s : State) n, n < steppersOf s.m.part → s.m.stepState n = 1 → s.m.bitA (stpBase n) 10 = false → s.m.bitA (stpBase n) 11 = false →
    Gives (.holdDelayEnd n) s (fun t => t.m.Like (s.tick.setB (stpBase n) 10 true) ∧ t.m.log = s.m.log)) ∧
  (∀ (s : State) n ovr, n < steppersOf s.m.part → s.m.stepState n ≠ 0 → s.m.stepState n ≠ 5 →
    Gives (.stpBridgeFault n ovr) s (fun t => t.m.stepState n = 5 ∧ t.m.bitA (stpBase n + 4) (if ovr then 1 else 2) = true ∧
      t.m.Pending 92 ∧ (t.m.stepOf n).gear = none ∧ (t.m.stepOf n).ivl = 0)) ∧
  (∀ (s : State) n g, n < steppersOf s.m.part → s.m.stepState n = 3 → (s.m.stepOf n).gear = some g → (s.m.stepOf n).pending = none →
    g.forward = false →
    Gives (.gearTick n) s (fun t =>
      t.m.rdA64 (stpBase n + 0x10) = signedOf 64 (unsignedOf 64 (s.m.gearTarget n)) ∧
      t.m.rdA (stpBase n + 0x24) = BitVec.ofInt 32 (clampInt (-2147483647) 2147483647 (s.m.gearTarget n - (s.m.stepOf n).pos)) ∧
      (t.m.bitA (stpBase n) 13 = true ↔
        ((if (s.m.stpParam n 5).toNat = 0 then 2560 else (s.m.stpParam n 5).toNat : Nat) : Int) <
          (s.m.gearTarget n - (s.m.stepOf n).pos).natAbs) ∧
      t.m.stepState n = 3 ∧ (t.m.stepOf n).pos = (s.m.stepOf n).pos))

/-- What the commands of the process group answer and do. In every state that accepts them, LOOP_LOAD loads a loop's descriptor, ends its
SAFE state and clears its fault class; LOOP_SETPOINT gives a loop its set-point; HV_SET gives an output its mode, level, limit and AC
values, clears its faults and switches a driving output to OFF when the mode is OFF; HV_ENABLE starts every output of its mask that is
neither locked nor driving nor waiting to start again, or switches every one off; FUSER_SET loads a channel's three words, its set-point
and the types of its inputs and clears its faults; FUSER_ENABLE starts the channels of its mask, which wait for the mains where their line
has no good crossings, or switches them off; PROCESS_READ returns its eight words and changes nothing. No other loop, output or channel
changes state. -/
def Obligations.ProcessGroupServed : Prop :=
  Served .loopLoad planLoopLoad (fun _ _ => [])
    (fun msg m t =>
      let n := numAt msg.payload 0 4
      (t.loopOf n).desc = bytesAt msg.payload 4 64 ∧ t.faultInst 0x0F 0 n = ⟨0, false⟩ ∧ t.bitA (0xF0001C + 0x80 * n) 31 = false ∧
      ((m.loopOf n).st = 3 → n < 70 → (t.loopOf n).st = 4) ∧
      ((m.loopOf n).st = 1 ∨ (m.loopOf n).st = 2 → (t.loopOf n).loaded = true) ∧
      (70 ≤ n → loopTrig (bytesAt msg.payload 4 64) = 0 → (t.loopOf n).st = 0) ∧
      (64 ≤ n → n < 70 → (t.loopOf n).u = 0 ∧ (t.loopOf n).i = 0 ∧ (t.loopOf n).d = 0) ∧
      (∀ k, k ≠ n → t.loopOf k = m.loopOf k) ∧ t.OnlyRegs m [0xF0001C + 0x80 * n] ∧ t.log = m.log) ∧
  Served .loopSetpoint planLoopSetpoint (fun _ _ => [])
    (fun msg m t =>
      let n := numAt msg.payload 0 4
      t.loopOf n = { m.loopOf n with sp := wordAt msg.payload 4, spGiven := true } ∧ (∀ k, k ≠ n → t.loopOf k = m.loopOf k) ∧
      t.OnlyRegs m [] ∧ t.log = m.log) ∧
  Served .hvSet planHvSet (fun _ _ => [])
    (fun msg m t =>
      let p := msg.payload
      let h := numAt p 0 1
      t.getA (hvBase h) 20 4 = numAt p 1 1 ∧ t.rdA (hvBase h + 8) = wordAt p 4 ∧ t.rdA (hvBase h + 0x10) = wordAt p 8 ∧
      t.rdA (hvBase h + 0x14) = BitVec.ofNat 32 (numAt p 2 2 * 65536 + numAt p 12 2) ∧
      (hvKind h ≠ 1 → t.rdA (hvBase h + 0xC) = wordAt p 4) ∧ t.bitA (hvBase h + 4) 31 = false ∧
      t.faultInst 0x10 0 h = ⟨0, false⟩ ∧ t.faultInst 0x11 0 h = ⟨0, false⟩ ∧
      (numAt p 1 1 ≠ 0 → t.hvState h = m.hvState h) ∧
      (numAt p 1 1 = 0 → m.hvState h = 1 ∨ m.hvState h = 2 ∨ m.hvState h = 3 → t.hvState h = 0) ∧
      (∀ k, k < 26 → k ≠ h → t.hvState k = m.hvState k) ∧ t.log = m.log) ∧
  Served .hvEnable planHvEnable (fun _ _ => [])
    (fun msg m t =>
      let hs := bitsOf (numAt msg.payload 0 4) 32
      (∀ h ∈ hs, numAt msg.payload 4 4 = 0 → t.hvState h = 0 ∧ t.getA (hvBase h) 27 2 = 0) ∧
      (∀ h ∈ hs, numAt msg.payload 4 4 = 1 → t.hvState h =
        if m.bitA (hvBase h + 4) 31 = true ∨ m.hvState h = 2 ∨ m.hvState h = 3 then m.hvState h else 1) ∧
      (∀ k, k < 26 → k ∉ hs → t.hvState k = m.hvState k) ∧ t.log = m.log) ∧
  Served .fuserSet planFuserSet (fun _ _ => [])
    (fun msg m t =>
      let p := msg.payload
      let c := numAt p 0 1
      (∀ k, k < 3 → t.rdA (fsrBase c + 0x14 + 4 * k) = wordAt p (4 * k)) ∧ t.fsrState c = m.fsrState c ∧
      t.rdA (fsrBase c + 8) =
        BitVec.ofNat 32 ((if m.fsrState c = 2 then numAt p 8 2 else numAt p 4 2) * 65536 + numAt p 6 2) ∧
      (∀ a ∈ fsrTypes p, t.bitA (0xF60400 + 4 * a.1) 1 = a.2) ∧ t.bitA (fsrBase c + 4) 31 = false ∧
      t.faultInst 0x12 0 c = ⟨0, false⟩ ∧ t.faultInst 0x13 0 c = ⟨0, false⟩ ∧ t.faultInst 0x14 0 c = ⟨0, false⟩ ∧ t.log = m.log) ∧
  Served .fuserEnable planFuserEnable (fun _ _ => [])
    (fun msg m t =>
      let cs := bitsOf (numAt msg.payload 0 4) 32
      (∀ c ∈ cs, numAt msg.payload 4 4 = 0 → t.fsrState c = 0 ∧ t.getA (fsrBase c) 26 2 = 0) ∧
      (∀ c ∈ cs, numAt msg.payload 4 4 = 1 → t.fsrState c =
        if m.fsrState c = 1 ∨ m.fsrState c = 5 then m.fsrState c else if m.lineGood (fsrLine c) then 1 else 5) ∧
      (∀ k, k < 4 → k ∉ cs → t.fsrState k = m.fsrState k) ∧ t.log = m.log) ∧
  Served .processRead planProcessRead
    (fun msg m => m.processReply (numAt msg.payload 0 4 / 256) (numAt msg.payload 0 4 % 256)) unchanged

/-- What one sample of a control loop does. While the module is awake, and in sleep for the fuser zones alone, a TIMER loop that runs,
whose set-point ramp, PID sum, clamp and integrator give its new values, takes exactly those values in one sample, where no loop is
cascaded over it and no calibration ramp runs; with a model, a sample outside its tolerance counts, and at the count of its descriptor the
loop sets PLAUSIBILITY with event 96 and an entry of class CTL_PLAUSIBILITY (claimed for a loop outside the armed job). A loop whose
binding does not apply is IDLE and takes no sample; a reading that fails sets INPUT_FAIL and takes no sample; a late sample sets LATE with
event 97. In DOZE and HIBERNATE the other loops take none. DENSITY_READ adds its reading to the windows the position lies in.
LOOP_STATE_SYNC copies what both sides share in this model, so it changes nothing. -/
def Obligations.LoopSamples : Prop :=
  (∀ (s : State) n y late v, n < 256 → loopFitted s.m.part n = true → loopTrig (s.m.loopOf n).desc = 1 →
    (s.m.getA 0x20004 19 3 < 2 ∨ (54 ≤ n ∧ n < 58)) → s.m.loopApplies n = true → (s.m.loopOf n).st = 1 → s.m.cal.ramps = [] → s.m.bitA calStat 27 = false →
    (∀ k, k < 256 → loopTrig (s.m.loopOf k).desc = 4 → loopArg (s.m.loopOf k).desc ≠ n) →
    (70 ≤ n → loopOut (s.m.loopOf n).desc % 256 ≠ n) →
    (s.m.loopInput n = some v ∨ (s.m.loopInput n = none ∧ y = some v)) →
    let l := s.m.loopOf n
    let new := pidSample { l with inner := l.inner + 1 } (s.m.loopTime n) v (s.m.loopSp n) (s.m.loopHeld n)
    (numAt l.desc 13 1 = 0 → late = false → Gives (.loopSample n y late) s (fun t =>
      t.m.loopOf n = { new with m := l.m, w := l.w, bad := 0, good := l.good + 1, disagree := false } ∧ t.m.log = s.m.log)) ∧
    (numAt l.desc 13 1 = 0 → late = true → Gives (.loopSample n y late) s (fun t =>
      (t.m.loopOf n).u = new.u ∧ (t.m.loopOf n).i = new.i ∧ t.m.bitA (0xF0001C + 0x80 * n) 2 = true ∧ t.m.Pending 97 ∧
      t.m.Logged s.m 0x0F n 0x0003 1)) ∧
    (numAt l.desc 13 1 = 1 ∨ numAt l.desc 13 1 = 2 → late = false → s.m.jobLoop n = false →
      flt (wordAt l.desc 56) (fabs (fsub v (modelStep l (s.m.loopTime n)).1)) = true → numAt l.desc 15 1 ≤ l.bad + 1 →
      Gives (.loopSample n y late) s (fun t => t.m.bitA (0xF0001C + 0x80 * n) 0 = true ∧ t.m.Pending 96 ∧
        ∃ e ∈ t.m.log, e.unit = 0x0F ∧ e.inst = n ∧ e.code = 0x0001 ∧ e.cls = 0x0F))) ∧
  (∀ (s : State) n y late, 2 ≤ s.m.getA 0x20004 19 3 → ¬(54 ≤ n ∧ n < 58) → Gives (.loopSample n y late) s (fun t => t.m = s.tick)) ∧
  (∀ (s : State) n y, n < 28 ∨ 54 ≤ n → loopFitted s.m.part n = true → loopTrig (s.m.loopOf n).desc = 1 →
    (s.m.getA 0x20004 19 3 < 2 ∨ (54 ≤ n ∧ n < 58)) → s.m.loopApplies n = false → s.m.loopInput n ≠ none ∨ y ≠ none → Gives (.loopSample n y false) s (fun t =>
      (t.m.loopOf n).st = (if (s.m.loopOf n).st = 1 ∨ (s.m.loopOf n).st = 2 then 4 else (s.m.loopOf n).st) ∧
      (t.m.loopOf n).samples = (s.m.loopOf n).samples ∧ t.m.OnlyRegs s.m [] ∧ t.m.log = s.m.log)) ∧
  (∀ (s : State) n, n < 28 ∨ (54 ≤ n ∧ n < 256) → loopFitted s.m.part n = true → loopTrig (s.m.loopOf n).desc = 1 →
    (s.m.getA 0x20004 19 3 < 2 ∨ (54 ≤ n ∧ n < 58)) → s.m.loopInput n = none → Gives (.loopSample n none false) s (fun t => t.m.bitA (0xF0001C + 0x80 * n) 3 = true ∧
      (t.m.loopOf n).samples = (s.m.loopOf n).samples ∧ (t.m.loopOf n).u = (s.m.loopOf n).u ∧ t.m.log = s.m.log ∧
      t.m.OnlyRegs s.m [0xF0001C + 0x80 * n])) ∧
  (∀ (s : State) station reading, station < stationsOf s.m.part →
    (∀ w ∈ s.m.drv.dens, s.m.encPos (((tabFind s.m.jobs s.m.armed).map Job.encoder).getD 0) ≤ w.hi) →
    (∀ v, reading = some v → v ≠ 0xFFFF → Gives (.densityRead station reading) s (fun t =>
      t.m.drv = { s.m.drv with dens := s.m.drv.dens.map (fun w =>
        if w.station = station ∧ w.lo ≤ s.m.encPos (((tabFind s.m.jobs s.m.armed).map Job.encoder).getD 0) ∧
          s.m.encPos (((tabFind s.m.jobs s.m.armed).map Job.encoder).getD 0) ≤ w.hi
        then { w with sum := w.sum + v, count := w.count + 1 } else w) } ∧ t.m.OnlyRegs s.m [] ∧ t.m.log = s.m.log)) ∧
    (reading = none ∨ reading = some 0xFFFF → Gives (.densityRead station reading) s (fun t =>
      t.m.bitA (0xF0001C + 0x80 * (64 + station)) 3 = true ∧ t.m.drv = s.m.drv ∧ t.m.log = s.m.log))) ∧
  (∀ s : State, Gives .loopStateSync s (fun t => t.m = s.tick ∧ t.img = s.img ∧ t.pending = s.pending))

/-- How the high-voltage outputs limit, trip, arc and start again. HV_LIMITING shows the limit an output meets with event 99 and its
entry; HV_LIMITING_END clears it. HV_TRIP of an output that limits removes its drive with TRIP, event 99 and an entry of class
HV_OVERLOAD; HV_ARC removes it with ARC, event 98 and an entry of class HV_ARC, and counts the arc. Either leaves the output in its
waiting state, or locked in FAULT where the class becomes lasting, for an output outside the armed job, whose engine a lasting class would
stop as well. HV_RESTART lets a waiting output rise again. -/
def Obligations.HighVoltageEvents : Prop :=
  (∀ (s : State) h, s.m.hvLive h = true →
    (s.m.getA (hvBase h) 20 4 = 2 → s.m.bitA (hvBase h) 27 = false → Gives (.hvLimiting h) s (fun t =>
      t.m.bitA (hvBase h) 27 = true ∧ t.m.hvState h = s.m.hvState h ∧ t.m.Pending 99 ∧ t.m.Logged s.m 0x0F h 0x0103 1)) ∧
    (s.m.getA (hvBase h) 20 4 ≠ 2 → s.m.bitA (hvBase h) 28 = false → Gives (.hvLimiting h) s (fun t =>
      t.m.bitA (hvBase h) 28 = true ∧ t.m.hvState h = s.m.hvState h ∧ t.m.Pending 99 ∧ t.m.Logged s.m 0x0F h 0x0102 1))) ∧
  (∀ (s : State) h, h < hvOf s.m.part → Gives (.hvLimitingEnd h) s (fun t =>
    t.m.getA (hvBase h) 27 2 = 0 ∧ t.m.hvState h = s.m.hvState h ∧ t.m.OnlyRegs s.m [hvBase h] ∧ t.m.log = s.m.log)) ∧
  (∀ (s : State) h, s.m.hvLive h = true → s.m.bitA (hvBase h) 26 = false →
    (s.m.bitA (hvBase h) 28 = true ∨ s.m.bitA (hvBase h) 27 = true → Gives (.hvTrip h) s (fun t =>
      t.m.bitA (hvBase h + 4) 1 = true ∧ t.m.getA (hvBase h) 27 2 = 0 ∧ t.m.Pending 99 ∧
      (t.m.hvState h = if s.m.lasting 0x11 0 h = false ∧ (s.m.faultSettings 0x11).thresh ≤ (s.m.faultInst 0x11 0 h).count + 1
        then 4 else 3) ∧ (t.m.loopOf (28 + h)).st ≠ 1 ∧
      ∃ e ∈ t.m.log, e.unit = 0x0F ∧ e.inst = h ∧ e.code = 0x0104 ∧ e.severity = 3 ∧ e.cls = 0x11)) ∧
    Gives (.hvArc h) s (fun t =>
      t.m.bitA (hvBase h + 4) 0 = true ∧ t.m.getA (hvBase h) 27 2 = 0 ∧ t.m.Pending 98 ∧
      (t.m.rdA (hvBase h + 0x20)).toNat = min 0xFFFFFFFF ((s.m.rdA (hvBase h + 0x20)).toNat + 1) ∧
      (t.m.hvState h = if s.m.lasting 0x10 0 h = false ∧ (s.m.faultSettings 0x10).thresh ≤ (s.m.faultInst 0x10 0 h).count + 1
        then 4 else 3) ∧ (t.m.loopOf (28 + h)).st ≠ 1 ∧
      ∃ e ∈ t.m.log, e.unit = 0x0F ∧ e.inst = h ∧ e.code = 0x0101 ∧ e.severity = 2 ∧ e.cls = 0x10)) ∧
  (∀ (s : State) h, h < hvOf s.m.part → s.m.hvState h = 3 → Gives (.hvRestart h) s (fun t =>
    t.m.hvState h = 1 ∧ t.m.OnlyRegs s.m [hvBase h] ∧ t.m.log = s.m.log))

/-- How the fuser fires, waits for the mains and fails. At a good zero crossing of a line with good crossings, a channel that runs adds
its output to its accumulator, held at 2, fires when that reaches 1 and the half-cycle restores its balance, and then takes 1 from it; the
eighth good crossing after a loss ends the loss with event 103; the fourth half-cycle in a row below 0.5 A faults the channel with
HEATER_OPEN. ZC_LOST stops the line's channels with event 103. FUSER_TEMP_SAMPLE shows each input's temperature and its validity, and the
third sample at the limit faults the channel. SENSOR_DISAGREE and FUSER_OVERCURRENT fault their channel. CUTOUT_OPEN takes every channel
into CUTOUT with event 101; CUTOUT_LOOP_CLOSED only closes the loop again. -/
def Obligations.FuserEvents : Prop :=
  (∀ (s : State) line positive currents, line < 2 → 2 * line < fusersOf s.m.part →
    (∀ c, c / 2 = line → s.m.bitA (fsrBase c) 26 = true → 500 ≤ currents.getD (c % 2) 0) →
    (s.m.lineGood line = true → ∀ c, c < fusersOf s.m.part → c / 2 = line → s.m.fsrState c = 1 ∨ s.m.fsrState c = 2 →
      let sum := fadd (s.m.fsrOf c).acc (s.m.loopOf (54 + c)).u
      let acc := if flt (f32 2) sum then f32 2 else sum
      let fire := !flt acc (f32 1) && (if positive then decide ((s.m.fsrOf c).bal ≤ 0) else decide (0 ≤ (s.m.fsrOf c).bal))
      Gives (.fuserZeroCrossing line positive true currents) s (fun t =>
        t.m.bitA (fsrBase c) 26 = fire ∧ (t.m.fsrOf c).acc = (if fire then fsub acc (f32 1) else acc) ∧
        (t.m.fsrOf c).bal = (s.m.fsrOf c).bal + (if fire then (if positive then 1 else -1) else 0) ∧
        t.m.rdA (fsrBase c + 0x10) = s.m.rdA (fsrBase c + 0x10) + (if fire then 1 else 0) ∧ t.m.log = s.m.log)) ∧
    (s.m.bitA (fsrMains line) 1 = true → tabGet 0 s.m.drv.zcGood line = 7 →
      Gives (.fuserZeroCrossing line positive true currents) s (fun t => t.m.lineGood line = true ∧ t.m.Pending 103 ∧
        t.m.Logged s.m 0x0F line 0x020A 0))) ∧
  (∀ (s : State) c positive currents, c < fusersOf s.m.part → s.m.bitA (fsrBase c) 26 = true →
    currents.getD (c % 2) 0 < 500 → (s.m.fsrOf c).openRun = 3 →
    Gives (.fuserZeroCrossing (c / 2) positive true currents) s (fun t => t.m.fsrState c = 4 ∧ t.m.bitA (fsrBase c + 4) 3 = true ∧
      t.m.bitA (fsrBase c) 26 = false ∧ t.m.Pending 101)) ∧
  (∀ (s : State) line, line < 2 → 2 * line < fusersOf s.m.part → s.m.bitA (fsrMains line) 1 = false →
    Gives (.zcLost line) s (fun t => t.m.bitA (fsrMains line) 1 = true ∧ t.m.bitA (fsrMains line) 0 = false ∧ t.m.Pending 103 ∧
      t.m.Logged s.m 0x0F line 0x0209 2 ∧
      ∀ c, c < fusersOf s.m.part → c / 2 = line → t.m.bitA (fsrBase c) 26 = false ∧ t.m.fsrState c = s.m.fsrState c ∧
        (t.m.loopOf (54 + c)).st ≠ 1)) ∧
  (∀ (s : State) temps, Gives (.fuserTempSample temps) s (fun t =>
    (∀ k v, k < 8 → temps[k]? = some v →
      t.m.getA (0xF60400 + 4 * k) 16 16 = unsignedOf 16 v ∧
      t.m.bitA (0xF60400 + 4 * k) 0 =
        (decide (v < -400 ∨ 3500 < v) && decide (2 ≤ tabGet 0 s.m.drv.tempBad k))) ∧
    (∀ c k v, c < fusersOf s.m.part → s.m.fsrLive c = true → fsrSet (s.m.fsrCfg c) = true → (s.m.fsrOf c).overRun = 2 →
      k ∈ fsrInputs (s.m.fsrCfg c) → k < 8 → temps[k]? = some v → v < 32768 → -32768 ≤ v →
      (numAt (s.m.fsrCfg c) 6 2 : Int) ≤ v →
      t.m.fsrState c = 4 ∧ t.m.bitA (fsrBase c + 4) 0 = true ∧ t.m.Pending 101))) ∧
  (∀ (s : State) c, s.m.fsrLive c = true →
    ((fsrInputs (s.m.fsrCfg c)).length = 2 → Gives (.sensorDisagree c) s (fun t => t.m.fsrState c = 4 ∧
      t.m.bitA (fsrBase c + 4) 2 = true ∧ t.m.bitA (fsrBase c) 26 = false ∧ t.m.Pending 101 ∧
      ∃ e ∈ t.m.log, e.unit = 0x0F ∧ e.inst = c ∧ e.code = 0x0203 ∧ e.cls = 0x12)) ∧
    Gives (.fuserOvercurrent c) s (fun t => t.m.fsrState c = 4 ∧ t.m.bitA (fsrBase c + 4) 4 = true ∧
      t.m.bitA (fsrBase c) 26 = false ∧ t.m.Pending 101 ∧
      ∃ e ∈ t.m.log, e.unit = 0x0F ∧ e.inst = c ∧ e.code = 0x0205 ∧ e.cls = 0x13)) ∧
  (∀ (s : State) loop, loop < 2 →
    Gives (.cutoutOpen loop) s (fun t => (if loop = 0 then t.m.ilk.cut0 else t.m.ilk.cut1) = false ∧ t.m.bitA 0xF60810 0 = true ∧
      t.m.Pending 101 ∧ t.m.Logged s.m 0x0F loop 0x0206 3 ∧
      ∀ c, c < fusersOf s.m.part → t.m.fsrState c = 3 ∧ t.m.bitA (fsrBase c + 4) 5 = true ∧ t.m.bitA (fsrBase c) 26 = false) ∧
    Gives (.cutoutLoopClosed loop) s (fun t => t.m =
      { s.tick with ilk := if loop = 0 then { s.m.ilk with cut0 := true } else { s.m.ilk with cut1 := true } }))

/-- What the interlock loops on X37 do. When a channel of the laser loop opens, laser drive is off with its entry of unit 0x0C, and an
armed engine without pages or waiting commands enters FAULTED with cause 1 and event 2; a second channel that opens changes nothing more.
When a channel of the HV loop opens, every output enters INTERLOCKED with event 100. A loop locks out only while its channels disagree. A
closing channel clears the lockout when both are closed after both were open for 100 ms, and the HV loop that is closed again raises event
100; no output starts by itself. -/
def Obligations.InterlockEvents : Prop :=
  (∀ (s : State) ch, (∀ k, k < 6 → (s.m.stnOf k).sweepOpen = false) →
    (s.m.ilk.shut .laser = true → engLive s.m.eng = false → Gives (.laserInterlock ch) s (fun t =>
      t.m.ilk = { s.m.ilk.setChan false .laser ch with laserEnabled := false } ∧ t.m.laserPermit = false ∧
      t.m.Logged s.m 0x0C noInst 0x0009 3 ∧ t.m.eng = s.m.eng)) ∧
    (s.m.ilk.shut .laser = true → engLive s.m.eng = true → s.m.pages = [] → s.m.awaits = [] → s.m.deferred = [] →
      Gives (.laserInterlock ch) s (fun t => t.m.ilk = { s.m.ilk.setChan false .laser ch with laserEnabled := false } ∧
        t.m.eng = .faulted ∧ t.m.cause = 1 ∧ t.m.armed = 0 ∧ t.m.Pending 2)) ∧
    (s.m.ilk.shut .laser = false → Gives (.laserInterlock ch) s (fun t =>
      t.m = { s.tick with ilk := s.m.ilk.setChan false .laser ch }))) ∧
  (∀ (s : State) ch, engLive s.m.eng = false →
    (s.m.ilk.shut .hv = true → Gives (.hvLoopOpen ch) s (fun t => t.m.ilk = s.m.ilk.setChan false .hv ch ∧
      t.m.hvPermit = false ∧ t.m.bitA 0xF40800 0 = true ∧ t.m.Pending 100 ∧ t.m.Logged s.m 0x0F noInst 0x0105 3 ∧
      ∀ h, h < hvOf s.m.part → t.m.hvState h = 5 ∧ t.m.bitA (hvBase h + 4) 2 = true)) ∧
    (s.m.ilk.shut .hv = false → Gives (.hvLoopOpen ch) s (fun t =>
      t.m = { s.tick with ilk := s.m.ilk.setChan false .hv ch }))) ∧
  (∀ (s : State) l, Gives (.interlockLockout l) s (fun t => t.m = { s.tick with
    ilk := if s.m.ilk.closed l .a = s.m.ilk.closed l .b then s.m.ilk else s.m.ilk.setLock true l })) ∧
  (∀ (s : State) l ch ms, Gives (.interlockLoopClosed l ch ms) s (fun t =>
    t.m.ilk = (if (s.m.ilk.setChan true l ch).shut l = true ∧ s.m.ilk.locked l = true ∧ 100 ≤ ms
      then (s.m.ilk.setChan true l ch).setLock false l else s.m.ilk.setChan true l ch) ∧
    (l = .hv → s.m.ilk.shut .hv = false → t.m.ilk.shut .hv = true → t.m.Pending 100 ∧ t.m.Logged s.m 0x0F noInst 0x0106 0) ∧
    (l = .laser → t.m.log = s.m.log) ∧ t.m.OnlyRegs s.m [] ∧ t.m.drv = s.m.drv ∧ t.m.eng = s.m.eng))

/-- What the commands of the calibration group answer and do. In every state that accepts them, CAL_RUN waits, shows that a calibration
runs and demands full performance, and where none runs it shows itself; CAL_USER_READ writes the record of the user layer into the buffer;
CAL_USER_WRITE puts each entry of the record into the user layer and sets DIRTY where it differs from the saved layer; CAL_SAVE writes a
record of the next generation over one copy of each side in service and clears DIRTY, and one whose read-back fails answers ST_TIMEOUT
with event 108; CAL_STATUS returns its four words; SELF_TEST returns its result (opaque, the spec gives none) and enables the beams while
the laser loop permits them. -/
def Obligations.CalibrationGroupServed : Prop :=
  Started .calRun planCalRun (fun msg _ => .calRun (numAt msg.payload 0 4) (numAt msg.payload 4 4))
    (fun msg m t =>
      let id := numAt msg.payload 0 4
      let mask := numAt msg.payload 4 4
      t.bitA calStat 26 = true ∧ t.getA 0x20000 28 2 = 0 ∧ t.cal = m.cal ∧
      ((∀ w ∈ m.awaits, w.calRun = none) →
        t.rdA 0xF80010 = BitVec.ofNat 32 (runCal id * 2 ^ 24 + runInstance id mask * 2 ^ 16))) ∧
  Served .calUserRead planCalUserRead
    (fun _ m => leBytes 4 (calRecord m.part ([m.calGen m.token 0, m.calGen m.token 1].foldl max 0) m.now m.cal.user).length)
    (becomes (fun msg m => m.emit (.hostWrite msg.side (numAt msg.payload 0 8)
      (calRecord m.part ([m.calGen m.token 0, m.calGen m.token 1].foldl max 0) m.now m.cal.user)))) ∧
  (∀ bs, Served .calUserWrite planCalUserWrite (fun _ _ => [])
    (fun _ m t => t.cal.user = (recEntries bs).foldl (fun u e => tabPut u e.1 e.2) m.cal.user ∧ t.cal.saved = m.cal.saved ∧
      t.cal.copies = m.cal.copies ∧ (recEntries bs ≠ [] → t.bitA calStat 25 = (t.cal.user != m.cal.saved)))
    (fun msg _ => hostBuf msg 0 = some bs)) ∧
  Served (fun msg => .calSave msg true) (fun _ => planCalSave true)
    (fun _ m => leBytes 4 (([SideId.a, .b].flatMap (fun d => if m.inService d then [m.calGen d 0, m.calGen d 1] else [])).foldl max 0 + 1))
    (fun _ m t => t.cal.saved = m.cal.user ∧ t.cal.user = m.cal.user ∧ t.bitA calStat 25 = false ∧ t.log = m.log ∧
      ∀ d, m.inService d = true → ∃ copy < 2,
        tabFind t.cal.copies (copyKey d copy) = some (calRecord m.part
          (([SideId.a, .b].flatMap (fun d => if m.inService d then [m.calGen d 0, m.calGen d 1] else [])).foldl max 0 + 1)
          m.now m.cal.user) ∧
        tabFind t.cal.copies (copyKey d (1 - copy)) = tabFind m.cal.copies (copyKey d (1 - copy))) ∧
  (∀ (msg : Msg) (s : State) c, mailRow (.calSave msg false) = some (c, msg) → s.tick.takes c msg (fun m => planCalSave false m) →
    Gives (.calSave msg false) s (fun t => t.m.answers 0x0904 msg s.m.token stTimeout 0 [] ∧ t.m.Pending 108 ∧
      t.m.Logged s.m 0x0F noInst 0x0307 3 ∧ t.m.cal.user = s.m.cal.user ∧ t.m.cal.saved = s.m.cal.saved)) ∧
  Served .calStatus (fun _ t => { reply := [t.rdA calStat, t.rdA 0xF80008, t.rdA 0xF8000C, t.calRunningWord t.token].flatMap wordBytes })
    (fun _ m => [m.rdA calStat, m.rdA 0xF80008, m.rdA 0xF8000C, m.calRunningWord m.token].flatMap wordBytes) unchanged ∧
  (∀ failing, Served (fun msg => .selfTest msg failing) (fun msg => planSelfTest msg failing)
    (fun _ m => leBytes 4 (Config.selfTestResult failing.isNone) ++ leBytes 4 (failing.getD (Config.freeNat m.fresh 601)))
    (becomes (fun _ m => { m with ilk := { m.ilk with laserEnabled := m.ilk.laserEnabled || m.laserPermit } })))

/-- How a calibration ends and the spare converters move. CAL_RUN_DONE of the only calibration that runs answers it: where every item
repeats within its tolerance with ST_OK and its quality record, event 104 and LAST_RESULT 0, where one does not with ST_CAL_DISAGREE,
event 105 and LAST_RESULT 1; RUNNING is clear. CAL_SPARE_STEP of a group under calibration puts the spare in place of the group's next
channel, or hands the channel back and goes on. ADC_SELF_CAL_DONE of a side in reduced service sets its bit of MGT_STAT, with no spare
standing in but a permanent one. -/
def Obligations.CalibrationEvents : Prop :=
  (∀ (s : State) id items w mask, s.m.awaits = [w] → w.kind = .calRun id mask →
    let its := runItems s.m.part id mask items
    (its.all (itemAgrees (runCal id)) = true → Gives (.calRunDone id items) s (fun t => t.m.awaits = [] ∧
      t.m.tags.head? = some ⟨w.msg.tag, msgDigest w.opcode w.msg, respBytes w.opcode w.msg s.m.token (if w.deferred then 0x40 else 0)
        stOk 0 (calQuality (runCal id) s.tick.now its)⟩ ∧
      t.m.bitA calStat 26 = false ∧ t.m.getA calStat 8 8 = runCal id ∧ t.m.getA calStat 0 8 = 0 ∧ t.m.Pending 104)) ∧
    (its.all (itemAgrees (runCal id)) = false → Gives (.calRunDone id items) s (fun t => t.m.awaits = [] ∧
      t.m.tags.head? = some ⟨w.msg.tag, msgDigest w.opcode w.msg, respBytes w.opcode w.msg s.m.token (if w.deferred then 0x40 else 0)
        stCalDisagree id []⟩ ∧
      t.m.bitA calStat 26 = false ∧ t.m.bitA calStat 24 = true ∧ t.m.getA calStat 8 8 = runCal id ∧ t.m.getA calStat 0 8 = 1 ∧
      t.m.Pending 105 ∧ t.m.cal.user = s.m.cal.user))) ∧
  (∀ (s : State) d g, g < 16 → s.m.fitted d = true →
    ((calRunning s.m.awaits).any (fun r => runCal r.2.1 == 1 && hasBit r.2.2 g) = true ∨ (s.m.mgt d 25 = true ∧ s.m.mgt d 27 = false)) →
    s.m.get d (calSpare g) 30 1 = 0 →
    (s.m.get d (calSpare g) 31 1 = 0 → tabGet 0 s.m.cal.steps (stepKey d g) < 16 → Gives (.calSpareStep d g) s (fun t =>
      t.m.get d (calSpare g) 31 1 = 1 ∧ t.m.get d (calSpare g) 0 4 = tabGet 0 s.m.cal.steps (stepKey d g) ∧ t.m.Pending 106 ∧
      t.m.Logged s.m 0x0F g 0x0303 0 ∧ t.m.cal = s.m.cal)) ∧
    (s.m.get d (calSpare g) 31 1 = 1 → Gives (.calSpareStep d g) s (fun t =>
      t.m.get d (calSpare g) 31 1 = 0 ∧ tabGet 0 t.m.cal.steps (stepKey d g) = tabGet 0 s.m.cal.steps (stepKey d g) + 1 ∧
      t.m.Pending 106 ∧ t.m.Logged s.m 0x0F g 0x0304 0))) ∧
  (∀ (s : State) d items, s.m.mgt d 25 = true → s.m.mgt d 27 = false → Gives (.adcSelfCalDone d items) s (fun t =>
    t.m.mgt d 27 = true ∧ ∀ g, g < 16 → t.m.get d (calSpare g) 31 1 = 0 ∨ t.m.get d (calSpare g) 30 1 = 1))

/-- What the commands of the redundancy group answer and do. In every state that accepts them, LIG_READ and FAULT_CLASS_READ return their
words and change nothing; FAULT_CLASS_SET gives a class its window and threshold, leaves the other classes' settings and ends every count
and lasting flag of the class; HANDOVER waits, and the token is about to move from the side that holds it. -/
def Obligations.RedundancyGroupServed : Prop :=
  Served .ligRead planLigRead (fun msg m => (planLigRead msg m).reply) unchanged ∧
  Served .faultClassRead planFaultClassRead
    (fun msg m =>
      let w := numAt msg.payload 0 4
      leBytes 4 (m.faultInst (w % 256) (w / 256 % 256) (w / 65536)).count ++ leBytes 4 (m.faultSettings (w % 256)).thresh ++
        leBytes 4 (m.faultSettings (w % 256)).window ++
        leBytes 4 (b2n (m.lasting (w % 256) (w / 256 % 256) (w / 65536)) + 2 * b2n (faultFixed (w % 256)))) unchanged ∧
  Served .faultClassSet planFaultClassSet (fun _ _ => [])
    (fun msg m t =>
      let cls := numAt msg.payload 0 4 % 256
      t.faultSettings cls = ⟨numAt msg.payload 4 4, numAt msg.payload 8 4⟩ ∧
      (∀ k, k ≠ cls → t.faultSettings k = m.faultSettings k) ∧
      (∀ side inst, side < 4 → inst < 65536 → t.faultInst cls side inst = ⟨0, false⟩) ∧
      (∀ k side inst, k ≠ cls → side < 4 → inst < 65536 → t.faultInst k side inst = m.faultInst k side inst)) ∧
  Started .handover (fun _ => planHandover) (fun _ _ => .handover)
    (fun _ m t => t.moving = (match m.moving with | some x => some x | none => some (m.token, true)) ∧ t.token = m.token ∧
      t.log = m.log ∧ t.OnlyRegs m [])

/-- What the commands of the security group answer and do. In every state that accepts them, SEC_CHALLENGE returns 32 bytes (free, the
core makes them) and holds them as the one challenge; SEC_AUTH whose signature verifies takes the Crypto Officer role and uses the
challenge up, one that fails answers ST_AUTH_FAILED with event 123 and leaves no role; SEC_CSR makes a pending pair and writes its request
into the buffer; SEC_CERT_LOAD takes the certificate or key into its slot with event 124, and the first owner's key clears TAMPERED;
SEC_PUBKEY_READ and SEC_TOKEN_READ only answer; SEC_ZEROISE ends identity, certificate and pending pair of every fitted side and empties
the module slots with event 122; SEC_SELF_TEST answers the number of the failing test, and a failure puts the core into its error state. -/
def Obligations.SecurityGroupServed : Prop :=
  Served .secChallenge planSecChallenge (fun _ m => (List.range 32).map (fun i => Config.freeByte m.fresh i))
    (becomes (fun _ m => { m with sec := { m.sec with
      challenge := some ((List.range 32).map (fun i => Config.freeByte m.fresh i)) } })) ∧
  (∀ (msg : Msg) (s : State) c, mailRow (.secAuth msg) = some (c, msg) → s.tick.takes c msg (planSecAuth msg) →
    let good := !s.m.sec.locked && s.m.authOk (bytesAt msg.payload 8 64)
    Gives (.secAuth msg) s (fun t =>
      t.m.answers 0x0B01 msg s.m.token (if good then stOk else stAuthFailed) 0 [] ∧ t.img = s.img ∧ t.pending = s.pending ∧
      t.m.sec.held = good ∧
      (good = true → t.m.AsIf { s.tick with sec := { s.m.sec with held := true, challenge := none } }) ∧
      (good = false → t.m.Pending 123) ∧
      (good = false → s.m.sec.locked = false → t.m.sec.challenge = none ∧
        t.m.sec.locked = decide (2 ≤ (s.m.sec.fails.filter (fun x => decide (s.tick.now ≤ x + 600000000))).length)))) ∧
  Served .secCsr planSecCsr
    (fun msg m => leBytes 4 (Config.csr ((slotSide (numAt msg.payload 0 4)).getD m.token).toNat (m.sec.gens + 1)).length)
    (fun msg m t =>
      let d := (slotSide (numAt msg.payload 0 4)).getD m.token
      (t.side d).core.pending = some (m.sec.gens + 1) ∧ (t.side d).core.gen = (m.side d).core.gen ∧
      t.sec = { m.sec with gens := m.sec.gens + 1 } ∧
      .hostWrite msg.side (numAt msg.payload 4 8) (Config.csr d.toNat (m.sec.gens + 1)) ∈ t.out ∧ t.log = m.log) ∧
  (∀ bs, Served .secCertLoad planSecCertLoad (fun _ _ => [])
    (fun msg m t =>
      let w := numAt msg.payload 0 4
      let d := (slotSide w).getD m.token
      t.Pending 124 ∧ t.Logged m 0x0F noInst 0x0706 1 ∧
      (slotNo w = 2 → (t.side d).core.certified = true ∧ (t.side d).core.pending = none ∧
        (m.side d).core.pending = some (t.side d).core.gen) ∧
      (slotNo w = 3 → t.sec = { m.sec with trust := bs }) ∧ (slotNo w = 5 → t.sec = { m.sec with cosign := bs }) ∧
      (slotNo w = 4 → t.sec = { m.sec with owner := bs } ∧ (m.sec.owner = [] → ∀ e, m.fitted e = true → t.get e 0xFE0004 31 1 = 0)))
    (fun msg _ => hostBuf msg 4 = some bs)) ∧
  (∀ key, Served .secPubkeyRead planSecPubkeyRead (fun _ _ => bytesAt key 0 65) unchanged
    (fun msg m => m.slotKey (numAt msg.payload 0 4) = some key)) ∧
  Served .secTokenRead planSecTokenRead
    (fun msg m =>
      let x := m.tokenOf (numAt msg.payload 0 4)
      leBytes 1 x.state ++ leBytes 1 x.cert.type ++ leBytes 1 x.cert.stations ++ leBytes 1 0 ++ leBytes 4 x.count ++
        leBytes 8 x.cert.serial) unchanged ∧
  Served .secZeroise (fun _ => planSecZeroise) (fun _ _ => [])
    (fun _ m t => (∀ d, m.fitted d = true → (t.side d).core.identity = false ∧ (t.side d).core.certified = false ∧
        (t.side d).core.pending = none ∧ m.sec.gens < (t.side d).core.gen) ∧
      t.sec.trust = [] ∧ t.sec.owner = [] ∧ t.sec.cosign = [] ∧ t.sec.held = false ∧ t.sec.challenge = none ∧ t.Pending 122 ∧
      ∃ e ∈ t.log, e.unit = 0x0F ∧ e.code = 0x0708 ∧ e.severity = 3) ∧
  Served (fun msg => .secSelfTest msg 0) (fun _ => planSecSelfTest 0) (fun _ _ => leBytes 4 0) unchanged ∧
  (∀ (msg : Msg) (s : State) c failed, failed ≠ 0 → mailRow (.secSelfTest msg failed) = some (c, msg) →
    s.tick.takes c msg (fun m => planSecSelfTest failed m) → s.m.inService s.m.token = true →
    Gives (.secSelfTest msg failed) s (fun t => t.m.answers 0x0B08 msg s.m.token stOk 0 (leBytes 4 failed) ∧
      (t.m.side s.m.token).core.error = true ∧ t.m.get s.m.token 0xFE0000 29 3 = 2 ∧
      t.m.get s.m.token 0xFE0000 8 8 = failed % 256 ∧ (t.m.side s.m.token).evt.pend.getLsbD 120 = true ∧
      (t.m.side s.m.token).faultN = true))

/-- What the commands of the firmware update group answer and do. In every state that accepts them, on every side they act on, FW_BEGIN
empties the bank that the side does not run, with its announced length, no longer good nor verified; FW_DATA writes its bytes there, no
longer verified; FW_VERIFY of banks that pass marks them verified, and where one fails it answers ST_VERIFY_FAILED with event 127 and an
entry on that side; FW_ACTIVATE prefers the verified bank on trial; FW_READ_STAT describes the two banks and changes nothing. -/
def Obligations.FirmwareGroupServed : Prop :=
  Served .fwBegin planFwBegin (fun _ _ => [])
    (fun msg m t => (∀ d, m.fwSide d = true →
      (t.side d).bank (m.fwSpare d) = { touched := true, len := numAt msg.payload 0 4, cells := [] } ∧
      (t.side d).bank (m.runs d) = (m.side d).bank (m.runs d) ∧
      (t.side d).boot.good (m.fwSpare d) = false ∧ (t.side d).boot.ver (m.fwSpare d) = false) ∧ t.OnlyRegs m [] ∧ t.log = m.log) ∧
  Served .fwData planFwData (fun _ _ => [])
    (fun msg m t => (∀ d, m.fwSide d = true →
      (t.side d).bank (m.fwSpare d) = { (m.side d).bank (m.fwSpare d) with
        cells := putCells ((m.side d).bank (m.fwSpare d)).cells (numAt msg.payload 0 8) (msg.payload.drop 8) } ∧
      (t.side d).bank (m.runs d) = (m.side d).bank (m.runs d) ∧ (t.side d).boot = (m.side d).boot.setVer (m.fwSpare d) false) ∧
      t.OnlyRegs m [] ∧ t.log = m.log) ∧
  Served .fwVerify (fun _ => planFwVerify) (fun _ _ => [])
    (fun _ m t => (∀ d, m.fwSide d = true → (t.side d).boot = (m.side d).boot.setVer (m.fwSpare d) true ∧
      (t.side d).bankA = (m.side d).bankA ∧ (t.side d).bankB = (m.side d).bankB) ∧ t.OnlyRegs m [] ∧ t.log = m.log)
    (fun _ m => ∀ d, m.fwSide d = true → m.fwVerdict d = none) ∧
  (∀ (msg : Msg) (s : State) c d k, mailRow (.fwVerify msg) = some (c, msg) → s.tick.takes c msg (fun m => planFwVerify m) →
    s.m.fwSide d = true → s.tick.fwVerdict d = some k → (s.m.side d).st ≠ .down →
    Gives (.fwVerify msg) s (fun t => t.m.answers 0x0D03 msg s.m.token stVerifyFailed 0 [] ∧ (t.m.side d).boot.ver (s.m.fwSpare d) = false ∧
      (t.m.side d).evt.pend.getLsbD 127 = true ∧ ∃ e ∈ t.m.log, e.side = d ∧ e.unit = 0x0F ∧ e.code = 0x0703 ∧ e.args = [(k : Int)])) ∧
  Served .fwActivate planFwActivate (fun _ _ => [])
    (fun _ m t => (∀ d, m.fwSide d = true → (t.side d).boot.preferred = m.fwSpare d ∧ (t.side d).boot.trial = true ∧
      (t.side d).boot.tried = false ∧ (t.side d).boot.good (m.fwSpare d) = false) ∧ t.eng = m.eng ∧ t.OnlyRegs m [] ∧ t.log = m.log)
    (fun msg _ => numAt msg.payload 0 4 = 0) ∧
  Served .fwReadStat planFwReadStat
    (fun msg m =>
      let d := if m.mgt msg.side 21 then msg.side else m.token
      m.fwStat d 0 ++ m.fwStat d 1) unchanged

/-- What a restart of the module or of a side leaves. While the module runs, SYS_RESTART 0, FW_ACTIVATE with ACTIVATE_NOW and RESTART
answer where they are commands and start every fitted side from the beginning with their RESET_CAUSE: the token is with side A, the engine
is CONFIGURED with no job, page, object or waiting command, and every register of BAR0 outside MGT_STAT, IMC_STAT, the SEQ block and what
MRAM keeps reads its reset value; an activated bank is tried. SYS_RESTART of a standby side makes it leave service with its partner ALONE
and the token where it was. -/
def Obligations.RestartsBeginAfresh : Prop :=
  let fresh (t m : Mach) (cause : Nat) : Prop := t.token = .a ∧ t.eng = .configured ∧ t.armed = 0 ∧ t.jobs = [] ∧ t.pages = [] ∧
    t.regions = [] ∧ t.planes = [] ∧ t.tpls = [] ∧ t.glyphs = [] ∧ t.awaits = [] ∧ t.deferred = [] ∧
    (∀ d, m.fitted d = true → (t.side d).st = .starting ∧ (t.side d).step = 0 ∧ t.get d mgtStat 16 4 = cause ∧
      (t.side d).boots = (m.side d).boots + 1 ∧
      ∀ off, off < bar4 → moduleWide off = false → off ≠ mgtStat → off ≠ 0x300004 → off ∉ keptRegs → t.rd d off = resetOf off)
  (∀ (msg : Msg) (s : State) c, mailRow (.sysRestart msg) = some (c, msg) → s.tick.takes c msg (planSysRestart msg) →
    s.m.power.phase = .running →
    (numAt msg.payload 0 1 = 0 → Gives (.sysRestart msg) s (fun t => fresh t.m s.m 4 ∧
      t.m.answers 0x0106 msg s.m.token stOk 0 [])) ∧
    (numAt msg.payload 0 1 = sideCode s.m.token.other → s.m.inService s.m.token = true → Gives (.sysRestart msg) s (fun t =>
      t.m.answers 0x0106 msg s.m.token stOk 0 [] ∧ t.m.token = s.m.token ∧ (t.m.side s.m.token).st = .alone ∧
      ((t.m.side s.m.token.other).st = .starting ∨ (t.m.side s.m.token.other).st = .down)))) ∧
  (∀ (msg : Msg) (s : State) c, mailRow (.fwActivate msg) = some (c, msg) → s.tick.takes c msg (planFwActivate msg) →
    s.m.power.phase = .running → numAt msg.payload 0 4 = 1 → Gives (.fwActivate msg) s (fun t => fresh t.m s.m 7 ∧
      t.m.answers 0x0D04 msg s.m.token stOk 0 [] ∧
      ∀ d, s.m.fwSide d = true → (t.m.side d).boot.preferred = s.m.fwSpare d ∧ (t.m.side d).boot.trial = true ∧
        (t.m.side d).boot.tried = true)) ∧
  (∀ (s : State) dest, s.m.get .a 0x40020 0 4 ≠ 0 → (dest = 0xFF ∨ dest = s.m.get .a 0x40020 0 4) → s.m.power.phase = .running →
    Gives (.restart dest) s (fun t => fresh t.m s.m 5))

/-- What the input supply, its hold-off and its straps bring about. FEED_CHANGE notes a feed, with event 2 when one goes, and both gone
end SOFT_OFF. POWER_GOOD powers an unpowered module up from the start with RESET_CAUSE 0. INPUT_LOW of a running module begins the
input-loss shutdown: the engine in FAULTED with cause 3, IN_LOW set, power-down begun. COLLAPSE switches every rail off, asserts both
reset outputs, takes STATE to RELEASED and holds both sides. The end of the hold-off restarts the module with RESET_CAUSE 1 where the
input is good. ALWAYS_ON_LOST leaves it unpowered; STRAP_CHANGED is noted and logged. TOKEN_TO_SIDE_B gives the token to a side B that is
ready alone. -/
def Obligations.SupplyEvents : Prop :=
  let starts (t m : Mach) (cause : Nat) : Prop := t.power.phase = .running ∧ t.token = .a ∧
    ∀ d, m.fitted d = true → (t.side d).st = .starting ∧ t.get d mgtStat 16 4 = cause
  (∀ (s : State) feed present mv, feed < 2 → Gives (.feedChange feed present mv) s (fun t =>
    (if feed = 0 then t.m.power.feedX1 else t.m.power.feedX2) = present ∧
    (if feed = 0 then t.m.power.feedX2 else t.m.power.feedX1) = (if feed = 0 then s.m.power.feedX2 else s.m.power.feedX1) ∧
    (s.m.supervised = true → (if feed = 0 then s.m.power.feedX1 else s.m.power.feedX2) = true → present = false →
      t.m.Pending 2 ∧ t.m.Logged s.m 0x00 feed 0x0201 2) ∧
    (s.m.power.phase = .softOff → t.m.power.feedX1 = false → t.m.power.feedX2 = false →
      t.m.power.phase = .unpowered ∧ t.m.power.alwaysOn = false) ∧
    (s.m.power.phase ≠ .softOff → t.m.power.phase = s.m.power.phase))) ∧
  (∀ s : State, s.m.power.phase = .unpowered → s.m.power.mrLow = false → Gives .powerGood s (fun t => starts t.m s.m 0 ∧
    t.m.power.inputGood = true ∧ t.m.power.alwaysOn = true ∧ t.m.power.rstHost = ⟨true, false⟩ ∧ t.m.power.rstHead = ⟨true, false⟩ ∧
    t.m.seqState = 0 ∧ t.m.get .a 0x40020 0 4 = s.m.power.straps.modId % 16 ∧ t.m.power.latched = s.m.power.straps ∧
    (s.m.power.feedX1 = false → ∃ e ∈ t.m.log, e.unit = 0x00 ∧ e.inst = 0 ∧ e.code = 0x0201) ∧
    (s.m.power.feedX2 = false → ∃ e ∈ t.m.log, e.unit = 0x00 ∧ e.inst = 1 ∧ e.code = 0x0201))) ∧
  (∀ (s : State) mv, s.m.power.phase = .running → s.m.eng ≠ .faulted → s.m.pages = [] → s.m.awaits = [] → s.m.deferred = [] →
    Gives (.inputLow mv) s (fun t => t.m.power.phase = .inputLoss ∧ t.m.power.inputGood = false ∧ t.m.eng = .faulted ∧ t.m.cause = 3 ∧
      t.m.armed = 0 ∧ t.m.get .a seqStat 20 1 = 1 ∧ t.m.ilk.laserEnabled = false ∧ (t.m.seqState = 0 ∨ t.m.seqState = 3 ∨ t.m.seqState = s.m.seqState) ∧
      ((s.m.seqState = 1 ∨ s.m.seqState = 2) → t.m.seqState = 0 ∨ t.m.seqState = 3) ∧ t.m.Pending 2 ∧
      ∃ e ∈ t.m.log, e.unit = 0x00 ∧ e.code = 0x0202 ∧ e.severity = 3)) ∧
  (∀ s : State, s.m.power.phase ≠ .unpowered → s.m.power.phase ≠ .softOff → s.m.pages = [] → Gives .collapse s (fun t =>
    t.m.power.phase = .collapsed ∧ t.m.power.inputGood = false ∧ t.m.power.holdoff = true ∧ t.m.seqState = 4 ∧
    t.m.get .a seqStat 18 3 = 7 ∧ t.m.power.rstHost = ⟨true, false⟩ ∧ t.m.power.rstHead = ⟨true, false⟩ ∧
    (∀ d, (t.m.side d).st = .down) ∧ (∀ r, r < railsOf s.m.part → t.m.railOn r = false) ∧ t.m.jobs = [] ∧ t.m.eng = .configured)) ∧
  (∀ s : State, s.m.power.holdoff = true → Gives .holdoffEnd s (fun t => t.m.power.holdoff = false ∧
    (s.m.power.inputGood = true → s.m.power.mrLow = false → starts t.m s.m 1) ∧
    (s.m.power.inputGood = true → s.m.power.mrLow = true → t.m.power.phase = .manualReset ∧ t.m.seqState = s.m.seqState) ∧
    (s.m.power.inputGood = false → t.m.power.afterHold = true ∧ t.m.get .a seqStat 18 1 = 0 ∧ t.m.power.phase = s.m.power.phase))) ∧
  (∀ s : State, s.m.power.phase = .collapsed ∨ s.m.power.phase = .softOff → Gives .alwaysOnLost s (fun t =>
    t.m.power.phase = .unpowered ∧ t.m.power.alwaysOn = false ∧ t.m.power.holdoff = false ∧ t.m.power.inputGood = false)) ∧
  (∀ (s : State) straps, Gives (.strapChanged straps) s (fun t => t.m.power = { s.m.power with straps := straps } ∧
    t.m.OnlyRegs s.m [] ∧ (s.m.power.alwaysOn = true → t.m.Logged s.m 0x00 noInst 0x020C 1))) ∧
  (∀ s : State, s.m.part = .w9d → s.m.token = .a → 9 ≤ s.m.b.step → s.m.a.step < 9 → s.m.eng = .configured →
    Gives .tokenToSideB s (fun t => t.m.token = .b ∧ (t.m.side .b).st = .alone ∧ t.m.safe = false))

/-- What the buttons, the discharge of rails and a thermal restart bring about. PB_SHORT_PRESS powers the rails up from OFF, begins the
grace time with event 1 in ON, and restarts a module in SOFT_OFF with RESET_CAUSE 2; PB_GRACE_END of a module without a job powers the
rails down. PB_LONG_PRESS and MR_ASSERT of a running module assert both reset outputs and begin their shutdown; MR_RELEASE with the rails
off restarts it with RESET_CAUSE 3. RAIL_DISCHARGED shows the step's rails discharged and ends power-down after step 0; DISCHARGE_TIMEOUT
shows the rail's fault and goes on. SHUT_HOLD_END counts the pulses lost in the newest record and ends the hold; THERMAL_RESTART restarts
the module, or the side that its own shutdown had stopped, with RESET_CAUSE 8. -/
def Obligations.ButtonAndPowerDownEvents : Prop :=
  let starts (t m : Mach) (cause : Nat) : Prop := t.power.phase = .running ∧ t.token = .a ∧
    ∀ d, m.fitted d = true → (t.side d).st = .starting ∧ t.get d mgtStat 16 4 = cause
  (∀ s : State,
    (s.m.power.phase = .running → s.m.sleepState = 0 → s.m.seqState = 2 → s.m.power.grace = false → Gives .pbShortPress s (fun t =>
      t.m.power.grace = true ∧ t.m.seqState = 2 ∧ t.m.Pending 1 ∧ t.m.Logged s.m 0x00 noInst 0x0104 1)) ∧
    (s.m.power.phase = .running → s.m.sleepState = 0 → s.m.seqState = 0 → s.m.isSlave = false → s.m.isMaster = false →
      s.m.stepCount ≠ 0 → Gives .pbShortPress s (fun t => t.m.seqState = 1 ∧ t.m.curStep = 0)) ∧
    (s.m.power.phase = .softOff → s.m.power.inputGood = true → s.m.power.mrLow = false →
      Gives .pbShortPress s (fun t => starts t.m s.m 2))) ∧
  (∀ s : State, s.m.power.grace = true → engLive s.m.eng = false → s.m.isSlave = false → s.m.isMaster = false → s.m.seqState = 2 →
    s.m.power.phase = .running → Gives .pbGraceEnd s (fun t => t.m.power.grace = false ∧ (t.m.seqState = 3 ∨ t.m.seqState = 0))) ∧
  (∀ s : State, s.m.power.phase = .running → s.m.eng ≠ .faulted → s.m.pages = [] → s.m.awaits = [] → s.m.deferred = [] →
    Gives .pbLongPress s (fun t =>
      t.m.power.rstHost.low = true ∧ t.m.power.rstHead.low = true ∧ t.m.power.grace = false ∧ t.m.power.holdoff = false ∧
      ((t.m.power.phase = .longPress ∧ t.m.eng = .faulted ∧ t.m.cause = 3) ∨
       (t.m.power.phase = .softOff ∧ (t.m.seqState = 0 ∨ s.m.seqState = 4) ∧ ∀ d, (t.m.side d).st = .down)))) ∧
  (∀ s : State,
    (s.m.power.phase = .running → s.m.pages = [] → Gives .mrAssert s (fun t => t.m.power.mrLow = true ∧
      t.m.power.phase = .manualReset ∧ t.m.power.rstHost.low = true ∧ t.m.power.rstHead.low = true ∧ ∀ d, (t.m.side d).st = .down)) ∧
    (s.m.power.phase = .unpowered → Gives .mrAssert s (fun t => t.m.power = { s.m.power with mrLow := true }))) ∧
  (∀ s : State,
    (s.m.power.phase = .manualReset → s.m.power.inputGood = true → s.m.seqState = 0 ∨ s.m.seqState = 4 → Gives .mrRelease s (fun t =>
      t.m.power.mrLow = false ∧ starts t.m s.m 3)) ∧
    (s.m.power.phase ≠ .manualReset → Gives .mrRelease s (fun t => t.m.power = { s.m.power with mrLow := false }))) ∧
  (∀ s : State, s.m.seqState = 3 → s.m.bus.grouped = false → s.m.get .a seqStat 23 1 = 0 → s.m.power.phase = .running →
    Gives .railDischarged s (fun t =>
      (∀ r ∈ s.m.stepRails s.m.curStep, s.m.railOn r = false → t.m.get .a (railMeas r) 0 1 = 1) ∧
      (s.m.curStep = 0 → t.m.seqState = 0)) ∧
    (∀ rail mv, rail < railsOf s.m.part → rail ∈ s.m.stepRails s.m.curStep → s.m.railOn rail = false →
      s.m.get .a (railMeas rail) 0 1 = 0 → Gives (.dischargeTimeout rail mv) s (fun t =>
        t.m.get .a seqStat 22 1 = 1 ∧ t.m.get .a seqStat (rail / 4) 1 = 1 ∧ (s.m.curStep = 0 → t.m.seqState = 0) ∧
        ∃ e ∈ t.m.log, e.unit = 0 ∧ e.inst = rail ∧ e.code = 0x0205 ∧ e.severity = 3))) ∧
  (∀ (s : State) r rs, s.m.power.phase = .thermalHold → s.m.shut.waiting = true → s.m.shut.recs = r :: rs →
    Gives .shutHoldEnd s (fun t => t.m.shut.waiting = false ∧
      t.m.shut.recs = withCrc (r.take 36 ++
        leBytes 4 ((List.range 8).foldl (fun n j => n + (s.m.rejOf j).queue.length) 0) ++ (r.drop 40).take 20) :: rs ∧
      (t.m.power.phase = .thermalHold ∨ (t.m.power.phase = .thermalWait ∧ t.m.seqState = 0)))) ∧
  (∀ s : State,
    (s.m.power.phase = .thermalWait → s.m.power.inputGood = true → s.m.power.mrLow = false →
      Gives .thermalRestart s (fun t => starts t.m s.m 8)) ∧
    (∀ d, s.m.power.phase = .running → s.m.fitted d = true → hasBit s.m.shut.stopped d.toNat = true → (s.m.side d).st = .down →
      Gives .thermalRestart s (fun t => (t.m.side d).st = .starting ∧ (t.m.side d).own = true ∧ t.m.get d mgtStat 16 4 = 8 ∧
        t.m.token = s.m.token)))

/-- How sleep is entered and left. POWER_TIMER_EXPIRY of a module at rest enters the timer's state with event 1 and its log entry;
POWER_STATE_REACHED ends the entry, and HIBERNATE reached without a wake has neither side in service; WAKE of an enabled source begins the
exit and keeps its source, and during an entry it is held; SLEEP_EXIT_DONE ends the exit with events 1 and 7. A valid RING_DB of an awake
module moves the host's index, an invalid one sets its bit with event 52; SVC_I2C_TRANSACTION to an address that no fitted side has does
nothing; one and MGMT_DATAGRAM too short for a header bring no command, well-formed new ones are fetched and wait to be carried out;
MGMT_WAKE_FRAME with the module's serial number wakes. PERF_TRANSITION_DONE lets the voltage reach the frequency in force, or ends a held
change. -/
def Obligations.SleepEvents : Prop :=
  (∀ (s : State) timer, s.m.power.phase = .running → s.m.inService s.m.token = true → s.m.rdA (0x2000C + 4 * sleepCode timer) ≠ 0 →
    s.m.busy = false → s.m.entering = false → s.m.sleep.exiting = false → s.m.sleepState < sleepCode timer →
    s.m.drivesRest = true → Gives (.powerTimerExpiry timer) s (fun t => t.m.sleepState = sleepCode timer ∧ t.m.entering = true ∧
      t.m.Pending 1 ∧ (∃ e ∈ t.m.log, e.unit = 0x00 ∧ e.args = [(s.m.sleepState : Int), (sleepCode timer : Int)]) ∧ (timer = .doze → ∀ c, c < fusersOf s.m.part → s.m.fsrState c = 1 →
        t.m.fsrState c = if s.m.fsrStandby c = 0 then 0 else 2))) ∧
  (∀ s : State, s.m.entering = true → s.m.sleep.latch = [] →
    (s.m.sleepState < 3 → Gives .powerStateReached s (fun t => t.m.entering = false ∧ t.m.sleepState = s.m.sleepState ∧
      t.m.log = s.m.log ∧ (s.m.sleepState = 2 → ∀ d, s.m.inService d = true → (t.m.side d).l1 = true))) ∧
    (s.m.sleepState = 3 → s.m.pages = [] → Gives .powerStateReached s (fun t => t.m.entering = false ∧ t.m.sleepState = 3 ∧
      (∀ d, t.m.inService d = false) ∧ t.m.jobs = [] ∧ t.m.regions = []))) ∧
  (∀ (s : State) src, s.m.wakes src = true →
    ((s.m.sleepState = 1 ∨ s.m.sleepState = 2) → s.m.entering = false → s.m.sleep.exiting = false → s.m.sleep.latch = [] →
      Gives (.wake src) s (fun t => t.m.sleep.exiting = true ∧ t.m.sleep.latch = [src] ∧ t.m.token = s.m.token ∧
        ∀ d, s.m.fitted d = true → t.m.rd d 0x20024 = BitVec.ofNat 32 (2 ^ wakeBit src))) ∧
    (s.m.sleepState = 3 → s.m.entering = false → s.m.sleep.exiting = false → Gives (.wake src) s (fun t => t.m.token = .a ∧
      t.m.sleepState = 0 ∧ t.m.Pending 7 ∧ ∀ d, s.m.fitted d = true → (t.m.side d).st = .starting ∧
        t.m.get d mgtStat 16 4 = s.m.get d mgtStat 16 4)) ∧
    (s.m.sleepState ≠ 0 → s.m.entering = true → Gives (.wake src) s (fun t => t.m.sleep.latch = latchAdd s.m.sleep.latch src ∧
      t.m.sleepState = s.m.sleepState ∧ t.m.log = s.m.log))) ∧
  (∀ s : State, s.m.sleep.exiting = true → s.m.sleepState = 1 → s.m.sleep.latch = [.button] → Gives .sleepExitDone s (fun t =>
    t.m.sleepState = 0 ∧ t.m.sleep = Sleep.init ∧ t.m.Pending 1 ∧ t.m.Pending 7 ∧
    ∃ e e1, t.m.log = e :: e1 :: s.m.log ∧ e.unit = 0x00 ∧ e.code = 0x0401 ∧ e.severity = 0 ∧ e1.unit = 0x00 ∧ e1.args = [1, 0])) ∧
  (∀ (s : State) d ring index, s.m.bar4On d = true → ring < 64 →
    (s.m.sleepState = 0 → s.m.doorbellOk d ring (index % 65536) = true → isRecordRing ring = false →
      Gives (.ringDb d ring index) s (fun t =>
        t.m.get d (ringPage ring + (if ringToHost ring then 0x10 else 0x14)) 0 16 = index % 65536 ∧
        (ringToHost ring = false → ((t.m.side d).ringAux ring).stalled = false) ∧ t.m.OnlyRegs s.m [] ∧ t.m.log = s.m.log)) ∧
    (s.m.sleepState = 0 → s.m.doorbellOk d ring (index % 65536) = false → Gives (.ringDb d ring index) s (fun t =>
      t.m.get d (ringPage ring + 0x18) 29 1 = 1 ∧ (t.m.side d).evt.pend.getLsbD 52 = true ∧ t.m.OnlyRegs s.m [])) ∧
    (s.m.sleepState ≠ 0 → s.m.wakes (.doorbell d ring index) = false → Gives (.ringDb d ring index) s (fun t =>
      t.m.sleep.latch = latchAdd s.m.sleep.latch (.doorbell d ring index) ∧ t.m.OnlyRegs s.m []))) ∧
  (∀ (s : State) d addr bytes, bytes.length < 16 →
    (s.m.sleepState = 0 → Gives (.svcI2cTransaction addr bytes) s (fun t => t.m = s.tick)) ∧
    Gives (.mgmtDatagram d bytes) s (fun t => t.m = s.tick)) ∧
  (∀ (s : State) addr bytes, s.m.i2cSide addr = none → Gives (.svcI2cTransaction addr bytes) s (fun t => t.m = s.tick)) ∧
  (∀ (s : State) d addr bytes, s.m.droneServes d = true → 16 ≤ bytes.length → 16 + numAt bytes 8 2 ≤ bytes.length → s.m.sleepState = 0 →
    badHeader bytes = none → cmdTable.any (fun c => c.1 == numAt bytes 4 2) = true → s.m.flights.all (fun f => f.tag != numAt bytes 0 4) = true →
    (s.m.i2cSide addr = some d → numAt bytes 8 2 ≤ 240 → s.m.tagVerdict (numAt bytes 4 2) (msgOf d .i2c bytes) = .new →
      Gives (.svcI2cTransaction addr bytes) s (fun t => ∃ f, t.m = { s.tick with flights := f :: s.m.flights } ∧
        f.tag = numAt bytes 0 4 ∧ f.opcode = numAt bytes 4 2 ∧ f.side = d ∧ f.via = .i2c ∧ f.begun = false)) ∧
    (numAt bytes 8 2 ≤ 1024 → s.m.tagVerdict (numAt bytes 4 2) (msgOf d .udp bytes) = .new →
      Gives (.mgmtDatagram d bytes) s (fun t => ∃ f, t.m = { s.tick with flights := f :: s.m.flights } ∧
        f.tag = numAt bytes 0 4 ∧ f.opcode = numAt bytes 4 2 ∧ f.side = d ∧ f.via = .udp ∧ f.begun = false))) ∧
  (∀ (s : State) d payload, s.m.fitted d = true → payload = wakeFrame → s.m.sleepState = 1 ∨ s.m.sleepState = 2 → s.m.entering = false →
    s.m.sleep.exiting = false → s.m.wakes .ethernet = true → Gives (.mgmtWakeFrame d payload) s (fun t => t.m.sleep.exiting = true)) ∧
  (∀ s : State,
    (s.m.getA 0x20004 28 2 < s.m.getA 0x20004 30 2 → Gives .perfTransitionDone s (fun t =>
      t.m.getA 0x20004 28 2 = s.m.getA 0x20004 30 2 ∧ t.m.getA 0x20004 30 2 = s.m.getA 0x20004 30 2 ∧ t.m.bitA 0x20004 23 = false)) ∧
    (s.m.getA 0x20004 30 2 ≤ s.m.getA 0x20004 28 2 → s.m.getA 0x20004 26 2 < s.m.getA 0x20004 30 2 →
      Gives .perfTransitionDone s (fun t =>
        t.m.getA 0x20004 28 2 = s.m.getA 0x20004 26 2 ∧ t.m.getA 0x20004 30 2 = s.m.getA 0x20004 26 2)))

/-- How thermal samples act. FLOOR_TIMER moves FLOOR one level slower, down to P3, while a DIE or BASE sensor is hot, else one level
faster, with event 5 where it moves. HOUSEKEEPING_SAMPLE of channel 127 counts the round; a good sample below every level of a channel
shows its reading and no level; one that first reaches the warning level raises event 4; one outside the sensor's range makes the sensor
faulty; an open head or motor sensor at its first sample is not fitted, and an absent channel's sample has no effect. -/
def Obligations.ThermalEvents : Prop :=
  (∀ s : State, s.m.inService s.m.token = true →
    (s.m.coreHot = true → Gives .floorTimer s (fun t => t.m.getA 0x20004 24 2 = min 3 (s.m.getA 0x20004 24 2 + 1) ∧
      (s.m.getA 0x20004 24 2 < 3 → t.m.Pending 5 ∧ t.m.Logged s.m 0x00 noInst 0x0503 1))) ∧
    (s.m.coreHot = false → Gives .floorTimer s (fun t => t.m.getA 0x20004 24 2 = s.m.getA 0x20004 24 2 - 1 ∧
      (0 < s.m.getA 0x20004 24 2 → t.m.Pending 5 ∧ t.m.Logged s.m 0x00 noInst 0x0503 1)))) ∧
  (∀ (s : State) d value, s.m.inService d = true → Gives (.housekeepingSample d 127 value) s (fun t =>
    t.m.get d 0x30010 0 8 = (s.m.get d 0x30010 0 8 + 1) % 256 ∧ t.m.OnlyRegs s.m [0x30010] ∧ t.m.log = s.m.log)) ∧
  (∀ (s : State) d k v, s.m.inService d = true → k < 39 → thermFitted s.m.part k = true →
    (bitOf (s.m.rd d (thmSense k)) 4 = false ∨ (32 ≤ k ∧ k ≠ 38 ∧ hasBit s.m.shut.fitTest (k - 32) = true)) → -320 ≤ v → v ≤ 1600 →
    (s.m.judges d k = true → (∀ i, i < 3 → s.m.atLevel d k i v = false) → Gives (.housekeepingSample d k (some v)) s (fun t =>
      t.m.thermRead d k = v ∧ t.m.get d (thmSense k) 0 5 = 0 ∧ t.m.log = s.m.log)) ∧
    (s.m.judges d k = true → s.m.atLevel d k 0 v = true → s.m.atLevel d k 1 v = false → s.m.atLevel d k 2 v = false →
      bitOf (s.m.rd d (thmSense k)) 0 = false → Gives (.housekeepingSample d k (some v)) s (fun t =>
        t.m.thermRead d k = v ∧ t.m.get d (thmSense k) 0 5 = 1 ∧ (t.m.side d).evt.pend.getLsbD 4 = true ∧
        t.m.Logged s.m 0x00 k 0x0501 1))) ∧
  (∀ (s : State) d k v, s.m.inService d = true → k = 38 → v < -320 ∨ 1600 < v → Gives (.housekeepingSample d k (some v)) s (fun t =>
    t.m.get d (thmSense k) 0 5 = (if bitOf (s.m.rd d (thmSense k)) 4 then s.m.get d (thmSense k) 0 5 else 8))) ∧
  (∀ (s : State) d k, s.m.inService d = true → 32 ≤ k → k < 47 → k ≠ 38 → thermFitted s.m.part k = true →
    hasBit s.m.shut.fitTest (k - 32) = true → Gives (.housekeepingSample d k none) s (fun t =>
      (∀ e, s.m.fitted e = true → t.m.rd e (thmSense k) = 16) ∧ hasBit t.m.shut.fitTest (k - 32) = false ∧ t.m.log = s.m.log)) ∧
  (∀ (s : State) d k value, thermFitted s.m.part k = false → k < 47 → Gives (.housekeepingSample d k value) s (fun t => t.m = s.tick))

/-- How the link, the signatures and the fault classes of two sides act. LIGATURE_TRAINED notes the lanes and the key, and with both sides
past step 9 pairs them: PARTNER_READY on both, the token holder ACTIVE, the other SHADOW or JOINING. LIGATURE_DOWN ends the link and the
standby side leaves service. LIG_FRAME drops failed lanes with event 116 while 8 are left and counts a bad frame. A SIGNATURE_RECORD that
agrees with the signature of the line that the state holds shows its line; one that differs, or SIGNATURE_TIMEOUT, ends the station's
match with event 113 and counts. STATION_CHECKPOINT notes its page and ends the match where it differs. FAULT_CLASS_DRAIN takes one count
from an instance that is not lasting. JOIN_UNIT_COPIED takes the joining side a step on: the allocated bytes of the token holder's image
memory are copied, then the side is SHADOW. -/
def Obligations.LigatureEvents : Prop :=
  (∀ (s : State) lanes keyOk, s.m.part = .w9d → s.m.a.step ≠ 0 → s.m.b.step ≠ 0 → 8 ≤ lanes → lanes ≤ 16 →
    s.m.fwRelease .a (s.m.runs .a) = s.m.fwRelease .b (s.m.runs .b) → s.m.fwField .a (s.m.runs .a) 1 = s.m.fwField .b (s.m.runs .b) 1 →
    Gives (.ligatureTrained lanes keyOk) s (fun t => t.m.ligUp = true ∧ t.m.ligKey = keyOk ∧ t.m.lanes = lanes ∧
      (keyOk = true → 9 ≤ s.m.a.step → 9 ≤ s.m.b.step → s.m.mgt s.m.token 29 = false →
        t.m.mgt .a 29 = true ∧ t.m.mgt .b 29 = true ∧ (t.m.side s.m.token).st = .active ∧
        ((t.m.side s.m.token.other).st = .shadow ∨ (t.m.side s.m.token.other).st = .joining)) ∧
      (keyOk = false → ∃ e ∈ t.m.log, e.unit = 0x0F ∧ e.code = 0x070D ∧ e.severity = 3))) ∧
  (∀ s : State, s.m.ligUp = true → Gives .ligatureDown s (fun t => t.m.ligUp = false ∧ t.m.lanes = 0 ∧
    t.m.inService s.m.token.other = false ∧ t.m.token = s.m.token ∧ ∃ e ∈ t.m.log, e.unit = 0x0F ∧ e.code = 0x0607)) ∧
  (∀ (s : State) lanes, s.m.part = .w9d → s.m.ligUp = true → 8 ≤ lanes →
    (lanes < s.m.lanes → Gives (.ligFrame true lanes) s (fun t => t.m.lanes = lanes ∧ t.m.Pending 116 ∧
      t.m.Logged s.m 0x0F noInst 0x0607 2)) ∧
    (s.m.lanes ≤ lanes → Gives (.ligFrame true lanes) s (fun t => t.m = s.tick)) ∧
    (s.m.lanes ≤ lanes → s.m.inService s.m.token = true → s.m.lasting 0x17 0 0 = false →
      (s.m.faultInst 0x17 0 0).count + 1 < (s.m.faultSettings 0x17).thresh → Gives (.ligFrame false lanes) s (fun t =>
        t.m.get s.m.token 0xFC0010 16 16 = min 0xFFFF (s.m.get s.m.token 0xFC0010 16 16 + 1) ∧
        t.m.faultInst 0x17 0 0 = ⟨(s.m.faultInst 0x17 0 0).count + 1, false⟩ ∧ t.m.ligUp = true))) ∧
  (∀ (s : State) st line own partner ownErr partnerErr, st < 6 → s.m.part = .w9d → s.m.compares st = true →
    s.tick.signature st line = some own →
    (own = partner → ownErr = false → partnerErr = false → Gives (.signatureRecord st line (BitVec.ofInt 32 line) partner ownErr partnerErr) s (fun t =>
      t.m.rdA (ligStn st + 4) = BitVec.ofInt 32 line ∧ t.m.matched st = s.m.matched st ∧ t.m.OnlyRegs s.m [ligStn st + 4] ∧
      t.m.log = s.m.log)) ∧
    (s.m.matched st = true → s.m.redund.faultAt = [] → s.m.lasting 0x16 0 st = false →
      (s.m.faultInst 0x16 0 st).count + 1 < (s.m.faultSettings 0x16).thresh →
      (own ≠ partner ∨ ownErr = true ∨ partnerErr = true →
        Gives (.signatureRecord st line (BitVec.ofInt 32 line) partner ownErr partnerErr) s (fun t => t.m.matched st = false ∧
          t.m.rdA (ligStn st + 8) = BitVec.ofInt 32 line ∧ t.m.Pending 113 ∧
          t.m.faultInst 0x16 0 st = ⟨(s.m.faultInst 0x16 0 st).count + 1, false⟩ ∧
          ∃ e ∈ t.m.log, e.unit = 0x0F ∧ e.inst = st ∧ e.code = 0x0602 ∧ e.cls = 0x16)) ∧
      Gives (.signatureTimeout st line) s (fun t => t.m.matched st = false ∧
        t.m.rdA (ligStn st + 8) = BitVec.ofInt 32 line ∧ t.m.Pending 113 ∧
        t.m.faultInst 0x16 0 st = ⟨(s.m.faultInst 0x16 0 st).count + 1, false⟩) ∧
      Gives (.stationCheckpoint st false) s (fun t => t.m.matched st = false ∧
        t.m.redund.ckptPage = (s.m.decOf st).savedPage ∧ t.m.Pending 113))) ∧
  (∀ (s : State) st, s.m.shadowed = true → s.m.inJob st = true → Gives (.stationCheckpoint st true) s (fun t =>
    t.m = { s.tick with redund := { s.m.redund with ckptPage := (s.m.decOf st).savedPage } })) ∧
  (∀ (s : State) cls side inst, s.m.lasting cls side inst = false → 0 < (s.m.faultInst cls side inst).count →
    Gives (.faultClassDrain cls side inst) s (fun t =>
      t.m.faultInst cls side inst = ⟨(s.m.faultInst cls side inst).count - 1, false⟩ ∧ t.m.OnlyRegs s.m [] ∧ t.m.log = s.m.log)) ∧
  (∀ s : State, (s.m.side s.m.token.other).st = .joining → s.memOk = true →
    (s.m.getA 0xFC001C 28 4 = 1 → Gives .joinUnitCopied s (fun t => t.m.getA 0xFC001C 28 4 = 2 ∧ t.img = s.img ∧
      t.m.OnlyRegs s.m [0xFC001C])) ∧
    (s.m.getA 0xFC001C 28 4 = 2 → (∀ i, i < 16 → s.m.mgt s.m.token.other i = true) → Gives .joinUnitCopied s (fun t =>
      t.m.getA 0xFC001C 28 4 = 3 ∧ t.img.side s.m.token = s.img.side s.m.token ∧
      ∀ a, (t.img.side s.m.token.other).get a =
        if s.m.allocated a then (s.img.side s.m.token).get a else (s.img.side s.m.token.other).get a)) ∧
    (s.m.getA 0xFC001C 28 4 = 3 → sparseWf resetOf (s.m.side s.m.token).regs = true → Gives .joinUnitCopied s (fun t => (t.m.side s.m.token.other).st = .shadow ∧ t.img = s.img ∧
      ∀ off, copiedReg off = true → moduleWide off = false → off ≠ 0xFC001C →
        t.m.rd s.m.token.other off = s.m.rd s.m.token off)))

/-- How a side fails, the token moves and a side leaves service. SIDE_FAULT, APP_WATCHDOG_EXPIRY and DECISION_TIMEOUT of a token holder
assert its FAULT_N with its entry, and of a standby side make it leave service; a stopped ALIVE only stops. DRONE_WATCHDOG restarts a
standby side with RESET_CAUSE 6. ARBITER_DETECT of the token holder plans the move to a level partner. TOKEN_MOVE, with every running
station dark, gives the token to the partner with event 112, TAKEOVERS counted: after a fault the partner is ALONE and the old side has
still to leave, after a HANDOVER they change places and it is answered. FORCE_DARK marks its stations with event 119. EXP_DEADLINE flags
the panels its suspect lines touch, SIDE_LEAVE makes the old side leave, HANDOVER_TIMEOUT gives the handover up. -/
def Obligations.SideEvents : Prop :=
  (∀ (s : State) d, s.m.inService d = true → s.m.redund.misAt = [] →
    (s.m.token = d → ∀ row, row = .watchdog ∨ row = .internalMemory ∨ row = .supply ∨ row = .clock ∨
        (∃ p, row = .lockstep p) ∨ (∃ n, row = .datapathParity n) →
      Gives (.sideFault d row) s (fun t => (t.m.side d).faultN = true ∧ (t.m.side d).st = (s.m.side d).st ∧ t.m.token = s.m.token ∧
        ∃ e ∈ t.m.log, e.unit = 0x0F ∧ e.code = 0x060B ∧ e.args = [(faultRow row : Int)]) ∧
      Gives (.appWatchdogExpiry d) s (fun t => (t.m.side d).faultN = true ∧ (t.m.side d).st = (s.m.side d).st)) ∧
    (s.m.token ≠ d → s.m.moving = none →
      Gives (.sideFault d .watchdog) s (fun t => (t.m.side d).st = .starting ∨ (t.m.side d).st = .down) ∧
      Gives (.appWatchdogExpiry d) s (fun t => (t.m.side d).st = .starting ∨ (t.m.side d).st = .down) ∧
      Gives .decisionTimeout s (fun t => (t.m.side d).st = .starting ∨ (t.m.side d).st = .down) ∧
      (s.m.power.phase = .running → Gives (.droneWatchdog d) s (fun t => t.m.token = s.m.token ∧
        ((t.m.side d).st = .starting ∧ t.m.get d mgtStat 16 4 = 6 ∨ (t.m.side d).st = .down)))) ∧
    Gives (.sideFault d .aliveStopped) s (fun t => (t.m.side d).alive = false ∧ (t.m.side d).st = (s.m.side d).st ∧
      t.m.OnlyRegs s.m [] ∧ t.m.log = s.m.log)) ∧
  (∀ (s : State) d, s.m.token = d → s.m.inService d = true → s.m.moving = none → (s.m.side d.other).st = .shadow →
    (s.m.side d.other).faultN = false → Gives (.arbiterDetect d) s (fun t => t.m.moving = some (d, false) ∧ t.m.token = d ∧
      t.m.redund.detectAt = s.tick.now ∧ ((s.m.side d).faultN = false → (t.m.side d).alive = false))) ∧
  (∀ (s : State) hand n, s.m.part = .w9d → s.m.moving = some (s.m.token, hand) → s.m.shadowed = true → s.m.allMatched = true →
    s.m.runningStns.all s.m.isDark = true →
    Gives (.tokenMove n) s (fun t => t.m.token = s.m.token.other ∧ t.m.moving = none ∧ t.m.tko = (s.m.tko + 1) % 256 ∧
      (t.m.side t.m.token).evt.pend.getLsbD 112 = true ∧
      (hand = true → (t.m.side t.m.token).st = .active ∧ (t.m.side s.m.token).st = .shadow ∧
        t.m.awaits.all (fun w => w.kind != .handover) = true) ∧
      (hand = false → (t.m.side t.m.token).st = .alone ∧ t.m.redund.lostBy = some s.m.token ∧ t.m.sec.held = false) ∧
      ∃ e ∈ t.m.log, e.unit = 0x0F ∧ e.code = 0x0601 ∧ e.args = [(sideCode s.m.token : Int), (n : Int)])) ∧
  (∀ (s : State) x k, s.m.moving = some (x, false) → k < 6 → s.m.inJob k = true → (s.m.stnOf k).sweepOpen = false →
    (s.m.stnOf k).ledLine = none → Gives (.forceDark [k]) s (fun t => t.m.Pending 119 ∧ t.m.Logged s.m 0x0F k 0x0605 2)) ∧
  (∀ (s : State) st line key y pg, s.m.redund.lostBy.isSome = true → s.m.linePages st line = [(key, y)] →
    tabFind s.m.pages key = some pg → Gives (.expDeadline [(st, line)]) s (fun t =>
      tabFind t.m.pages key = some (pg.flagBow (s.m.bowShifts st) y y fSuspect) ∧ t.m.OnlyRegs s.m [] ∧ t.m.log = s.m.log)) ∧
  (∀ (s : State) d, s.m.redund.lostBy = some d → s.m.fitted d = true → Gives .sideLeave s (fun t =>
    t.m.redund.lostBy = none ∧ ((t.m.side d).st = .starting ∨ (t.m.side d).st = .down) ∧ t.m.token = s.m.token)) ∧
  (∀ (s : State) x, s.m.moving = some (x, true) → Gives .handoverTimeout s (fun t => t.m.moving = none ∧ t.m.token = s.m.token ∧
    t.m.Pending 119 ∧ t.m.awaits.all (fun w => w.kind != .handover) = true ∧ t.m.Logged s.m 0x0F noInst 0x060A 1))

/-- What timers of the roles, tampering and the record chain's checkpoints do. CO_ROLE_TIMEOUT ends the Crypto Officer role,
CHALLENGE_EXPIRY the challenge and AUTH_LOCK_END the lockout, and nothing else. TAMPER of a powered side zeroises its core and the module
slots and latches its cause in SEC_TAMPER. CHECKPOINT_TIMER makes the checkpoint that is due over the uncovered records; CHECKPOINT_SIGNED
puts the time of signing into the first unsigned body of a healthy core's side and appends the signature; CHECKPOINT_LATE raises event 82
while one is unsigned. -/
def Obligations.SecurityAndCheckpointEvents : Prop :=
  (∀ s : State, Gives .coRoleTimeout s (fun t => t.m = { s.tick with sec := { s.m.sec with held := false } }) ∧
    Gives .challengeExpiry s (fun t => t.m = { s.tick with sec := { s.m.sec with challenge := none } }) ∧
    Gives .authLockEnd s (fun t => t.m = { s.tick with sec := { s.m.sec with locked := false } })) ∧
  (∀ (s : State) d cause, s.m.fitted d = true → s.m.power.alwaysOn = true → Gives (.tamper d cause) s (fun t =>
    t.m.sec.trust = [] ∧ t.m.sec.owner = [] ∧ t.m.sec.cosign = [] ∧ t.m.sec.held = false ∧ t.m.sec.challenge = none ∧
    (t.m.side d).core.identity = false ∧ (t.m.side d).core.certified = false ∧ (t.m.side d).core.pending = none ∧
    t.m.rd d 0xFE0004 = BitVec.ofNat 32 (2 ^ 31 + 2 ^ tamperBit cause + min 0xFFFF (s.m.get d 0xFE0004 0 16 + 1)) ∧
    ∃ e ∈ t.m.log, e.unit = 0x0F ∧ e.side = d ∧ e.code = 0x0702 ∧ e.severity = 3)) ∧
  (∀ s : State,
    (s.m.records.ckptTimer = true → 0 < s.m.records.uncovered → Gives .checkpointTimer s (fun t =>
      t.m.records.uncovered = 0 ∧ t.m.records.ckptTimer = false ∧ t.m.records.next = s.m.records.next + 1 ∧
      t.m.records.ckptSeq = s.m.records.next ∧
      ∃ e, tabFind t.m.records.entries s.m.records.next = some e ∧ e.isCkpt = true ∧ e.signed = false ∧ e.bytes.length = 32 + s.m.records.lastHead.length)) ∧
    (s.m.records.ckptTimer = false → Gives .checkpointTimer s (fun t => t.m = s.tick))) ∧
  (∀ (s : State) seq e, s.m.unsigned = some (seq, e) → e.freed = false →
    let body := e.bytes.take 24 ++ leBytes 8 s.tick.now ++ e.bytes.drop 32
    ((s.m.side s.m.token).core.error = false → s.m.inService s.m.token = true → (s.m.side s.m.token).core.lastSeq < seq →
      numAt e.bytes 9 1 = sideCode s.m.token → Gives .checkpointSigned s (fun t =>
        tabFind t.m.records.entries seq = some { e with
          bytes := body ++ bytesAt (Config.sign s.m.token.toNat (s.m.side s.m.token).core.gen body) 0 64, signed := true } ∧
        (t.m.side s.m.token).core.lastSeq = seq ∧
        t.m.get s.m.token 0xFE0000 0 8 = (s.m.get s.m.token 0xFE0000 0 8 + 1) % 256)) ∧
    Gives .checkpointLate s (fun t => t.m.Pending 82 ∧ t.m.Logged s.m 0x05 noInst 0x000A 2 ∧ t.m.records = s.m.records))

/-- How consumable tokens are asked and what their answers do. TOKEN_POLL with the rails on asks every token newly found and takes an
absent one out of use; TOKEN_AUTH_TIMER asks those of every station while a job is armed. TOKEN_ANSWER of an authentication takes the
certificate and the state that R639 gives, and where a good token thereby fails its stations are inhibited with event 125; a good
DECREMENT takes the lines from the count; absence empties the place. TOKEN_BUS_ERROR repeats a transaction three times, then the token is
unreachable. -/
def Obligations.ConsumableEvents : Prop :=
  (∀ (s : State) i, i < 4 * stationsOf s.m.part → s.m.inService s.m.token = true →
    (∀ c trusted count signed, Gives (.tokenAnswer i (.authenticated c trusted count signed)) s (fun t =>
      (t.m.tokenOf i).state = authState i c trusted count signed ∧ (t.m.tokenOf i).cert = c ∧ (t.m.tokenOf i).query = false ∧
      (t.m.tokenOf i).count = (if trusted && signed then count else (s.m.tokenOf i).count) ∧
      ((s.m.tokenOf i).state = 1 → (s.m.tokenOf i).failed = false → authState i c trusted count signed ≠ 1 →
        t.m.Pending 125 ∧ (∀ k, k < stationsOf s.m.part → TokenCert.names c k = true → t.m.bitA 0x10100 (8 + k) = true) ∧
        ∃ e ∈ t.m.log, e.unit = 0x0F ∧ e.inst = i ∧ e.code = 0x0707))) ∧
    (∀ a count, (s.m.tokenOf i).asked = some a → (s.m.tokenOf i).count = count + a → 0 < count →
      Gives (.tokenAnswer i (.decremented count true)) s (fun t => (t.m.tokenOf i).count = count ∧ (t.m.tokenOf i).asked = none ∧
        (t.m.tokenOf i).lines = (s.m.tokenOf i).lines - a * (s.m.tokenOf i).cert.unitLines ∧
        (t.m.tokenOf i).state = (s.m.tokenOf i).state)) ∧
    Gives (.tokenAnswer i .absent) s (fun t => (t.m.tokenOf i).asked = none ∧ (t.m.tokenOf i).query = false ∧
      (t.m.tokenOf i).state = (if (s.m.tokenOf i).state = 7 ∨ ((s.m.tokenOf i).state ≠ 0 ∧ (s.m.tokenOf i).armed = true ∧
        engLive s.m.eng = true) then 7 else 0)) ∧
    ((s.m.tokenOf i).query = true → (s.m.tokenOf i).asked = none → (s.m.tokenOf i).retries < 3 →
      Gives (.tokenBusError i) s (fun t => (t.m.tokenOf i).retries = (s.m.tokenOf i).retries + 1 ∧ .tokenQuery i ∈ t.m.out ∧
        t.m.log = s.m.log)) ∧
    ((s.m.tokenOf i).query = true → 3 ≤ (s.m.tokenOf i).retries → Gives (.tokenBusError i) s (fun t =>
      (t.m.tokenOf i).state = 6 ∧ (t.m.tokenOf i).query = false ∧ (t.m.tokenOf i).asked = none))) ∧
  (∀ s : State, engLive s.m.eng = true → Gives .tokenAuthTimer s (fun t =>
    ∀ i, i < 4 * stationsOf s.m.part → (s.m.tokenOf i).state ≠ 0 → (s.m.tokenOf i).state ≠ 7 →
      (t.m.tokenOf i).query = true ∧ .tokenQuery i ∈ t.m.out)) ∧
  (∀ (s : State) present, s.m.seqState = 2 → s.m.inService s.m.token = true → Gives (.tokenPoll present) s (fun t =>
    ∀ i, i < 4 * stationsOf s.m.part →
      (hasBit present i = true → (s.m.tokenOf i).state = 0 → (s.m.tokenOf i).query = false →
        (t.m.tokenOf i).query = true ∧ .tokenQuery i ∈ t.m.out) ∧
      (hasBit present i = false → engLive s.m.eng = false → (t.m.tokenOf i).query = false ∧
        ((t.m.tokenOf i).state = 0 ∨ (t.m.tokenOf i).state = 7))))

/-- What endpoint resets, link states, latches and events of the host link do. LINK_RESET turns every ring off with its size kept, clears
MSI-X and mask, keeps what is pending, stops the snapshot and advances FLR_COUNT; PCIE_LINK_TRAINED shows speed and width, within what the
cables allow; D3HOT_ENTRY, D0_RETURN and ASPM_L1_ENTRY, where the host has enabled it and no job is armed or where a downstream request
asks for it, set the link's state, and a return sends held messages. HIGH_WORD_LATCH latches the high word of a side's count,
SREC_DATA_READ advances the pointer. EVT_SET makes its events pending; EVT_MASK_CLEAR clears its mask bits and sends what is pending;
VECTOR_TIMER sends or holds a message and starts the vector afresh; MSIX_UNMASK sends a held message. SNAPSHOT_TICK writes the snapshot
with the next count. -/
def Obligations.HostLinkEvents : Prop :=
  (∀ (s : State) d kind, s.m.fitted d = true → (s.m.side d).st ≠ .down → (s.m.side d).endpoint = true →
    Gives (.linkReset d kind) s (fun t =>
      (∀ n, n < 64 → t.m.ringOn d n = false ∧ t.m.ringHead d n = 0 ∧ t.m.ringTail d n = 0 ∧ t.m.ringSize d n = s.m.ringSize d n) ∧
      (t.m.side d).msix = Msix.init ∧ (t.m.side d).evt.mask = BitVec.allOnes 128 ∧ (t.m.side d).d3 = false ∧
      (∀ n, (s.m.side d).evt.pend.getLsbD n = true → (t.m.side d).evt.pend.getLsbD n = true) ∧
      bitOf (t.m.rd d (bar4 + 0x40018)) 31 = false ∧ t.m.get d linkStat 8 8 = (s.m.get d linkStat 8 8 + 1) % 256 ∧
      (t.m.side d).linkUp = (if kind = .flr then (s.m.side d).linkUp else false) ∧ t.m.eng = s.m.eng ∧ t.m.tags = s.m.tags ∧
      t.img = s.img)) ∧
  (∀ (s : State) d speed width x51 x52, s.m.fitted d = true → (s.m.side d).st ≠ .down → (s.m.side d).endpoint = true → 1 ≤ speed →
    speed ≤ 4 → [1, 2, 4, 8, 16].contains width = true →
    (width ≤ cableWidth x51 x52 → Gives (.pcieLinkTrained d speed ⟨width, x51, x52⟩) s (fun t =>
      (t.m.side d).linkUp = true ∧ (t.m.side d).l1 = false ∧ (t.m.side d).cables = (x51, x52) ∧ t.m.get d linkStat 28 4 = speed ∧
      t.m.get d linkStat 22 6 = width)) ∧
    (cableWidth x51 x52 < width → Gives (.pcieLinkTrained d speed ⟨width, x51, x52⟩) s (fun t =>
      t.m = s.tick.modSide d (fun x => { x with cables := (x51, x52) })))) ∧
  (∀ (s : State) d, s.m.fitted d = true →
    ((s.m.side d).endpoint = true → Gives (.d3hotEntry d) s (fun t => t.m = s.tick.modSide d (fun x => { x with d3 := true }))) ∧
    ((s.m.side d).d3 = true → Gives (.d0Return d) s (fun t => (t.m.side d).d3 = false ∧ (t.m.side d).l1 = false ∧
      (∀ d' off, t.m.rd d' off = s.m.rd d' off) ∧
      ∀ v, v < 32 → bitOf (s.m.side d).msix.pba v = true → (s.m.side d).msix.enable = true → (s.m.side d).msix.funcMask = false →
        ((s.m.side d).msix.entry v).masked = false → (s.m.side d).linkUp = true →
        .msix d v ∈ t.m.out ∧ bitOf (t.m.side d).msix.pba v = false)) ∧
    (∀ host, (s.m.side d).linkUp = true → host = true ∨ (s.m.side d).aspm = true ∧ engLive s.m.eng = false →
      Gives (.aspmL1Entry ⟨d, host⟩) s (fun t => t.m = s.tick.modSide d (fun x => { x with l1 := true }))) ∧
    ((s.m.side d).aspm = false ∨ engLive s.m.eng = true → Gives (.aspmL1Entry ⟨d, false⟩) s (fun t => t.m = s.tick))) ∧
  (∀ (s : State) d n, n < 4 → s.m.bar0On d (encBase n) = true → Gives (.highWordLatch d (encBase n + 0x10)) s (fun t =>
    tabFind (t.m.side d).latch (encBase n + 0x14) = some (BitVec.ofNat 32 (unsignedOf 64 ((s.m.encOf n).count - (tabGet (0, 0) (s.m.side d).encZero n).1) / 2 ^ 32)) ∧
    ∀ d' off, t.m.rd d' off = s.m.rd d' off)) ∧
  (∀ (s : State) d, s.m.bar0On d 0x408000 = true → s.m.get d 0x408000 0 15 < 24080 → Gives (.srecDataRead d) s (fun t =>
    t.m.get d 0x408000 0 15 = (if s.m.get d 0x408000 0 15 = 24079 then 0 else s.m.get d 0x408000 0 15 + 1) ∧
    t.m.OnlyRegs s.m [0x408000])) ∧
  (∀ (s : State) d k w, s.m.bar0On d 0x100000 = true → k < 4 →
    Gives (.evtSet d k w) s (fun t => t.m.Keeps s.m ∧ t.m.OnlyRegs s.m [] ∧ t.m.log = s.m.log ∧
      ∀ j, j < 32 → w.getLsbD j = true → eventAbsent s.m.part (32 * k + j) = false →
        (t.m.side d).evt.pend.getLsbD (32 * k + j) = true ∧ (t.m.side d).evt.countOf (32 * k + j) =
          ((s.m.side d).evt.countOf (32 * k + j) + 1) % 2 ^ 32) ∧
    Gives (.evtMaskClear d k w) s (fun t =>
      (∀ n, n < 128 → (t.m.side d).evt.mask.getLsbD n = ((s.m.side d).evt.mask.getLsbD n && !(decide (n / 32 = k) && w.getLsbD (n % 32)))) ∧
      (t.m.side d).evt.pend = (s.m.side d).evt.pend ∧
      ∀ j, j < 32 → w.getLsbD j = true → (s.m.side d).evt.mask.getLsbD (32 * k + j) = true →
        (s.m.side d).evt.pend.getLsbD (32 * k + j) = true →
        fieldOf ((s.m.side d).evt.coalOf ((s.m.side d).evt.routeOf (32 * k + j))) 0 8 ≤ 1 →
        (s.m.side d).mayMsg ((s.m.side d).evt.routeOf (32 * k + j)) = true →
        .msix d ((s.m.side d).evt.routeOf (32 * k + j)) ∈ t.m.out)) ∧
  (∀ (s : State) d v, v < 32 →
    (((s.m.side d).evt.vecOf v).timing = true → Gives (.vectorTimer d v) s (fun t => (t.m.side d).evt.vecOf v = ⟨0, false⟩ ∧
      (t.m.side d).evt.pend = (s.m.side d).evt.pend ∧
      ((s.m.side d).mayMsg v = true → t.m.out = .msix d v :: s.m.out) ∧
      ((s.m.side d).mayMsg v = false → t.m.out = s.m.out ∧ bitOf (t.m.side d).msix.pba v = true))) ∧
    (s.m.bar4On d = true → Gives (.msixUnmask d v) s (fun t => ((t.m.side d).msix.entry v).masked = false ∧
      (bitOf (s.m.side d).msix.pba v = true → (s.m.side d).msix.enable = true → (s.m.side d).msix.funcMask = false →
        (s.m.side d).linkUp = true → .msix d v ∈ t.m.out ∧ bitOf (t.m.side d).msix.pba v = false)))) ∧
  (∀ (s : State) d, s.m.bar4On d = true → (s.m.side d).linkUp = true → bitOf (s.m.rd d (bar4 + 0x40018)) 31 = true →
    Gives (.snapshotTick d) s (fun t => (t.m.side d).snapSeq = ((s.m.side d).snapSeq + 1) % 2 ^ 32 ∧
      t.m.out = .hostWrite d (s.m.rd64 d (bar4 + 0x40010)) (s.tick.snapshot d (((s.m.side d).snapSeq + 1) % 2 ^ 32)) :: s.m.out))

/-- What a register write does under the access codes. A REGISTER_WRITE beyond the window of its BAR stops by name: the spec gives no such
access. Within BAR0, a whole word written to a register with no action of its own changes exactly the bits that the host may write: RW
bits take the value, W1C bits written 1 are cleared, firmware-owned bits change only while Drone is in charge, and all others stay, with
no other register of BAR0 changed. A SEQ step register changes only while the sequencer is off; otherwise it stays and event 10 is raised,
with a log entry. A write to EVT_STAT clears the bits written 1. A write that leaves a word partly enabled, or is not aligned, changes no
register of BAR0 and is counted in BAD_ACCESS; one of the MSI-X control word reaches the bytes that it enables. -/
def Obligations.RegisterWriteActs : Prop :=
  (∀ (s : State) d bar off words, barSize bar < off + 4 * words.length →
    exec (.registerWrite d bar off words) s = .fault .outsideBar) ∧
  (∀ (s : State) d off v r, off + 4 ≤ 0x1000000 → off % 4 = 0 → s.m.bar0On d off = true → regAbsent s.m.part off = false →
    rowOf off = some r → r.rwl = 0 → r.clr = 0 → stageReg off = false →
    ¬(0x100000 ≤ off ∧ off < 0x100700) → ¬(0x11010 ≤ off ∧ off < 0x11190) → ¬(0x40200 ≤ off ∧ off < 0x40260) →
    ¬(0x30000 ≤ off ∧ off < 0x30010) → ¬(0x200000 ≤ off ∧ off < 0x202000 ∧ off % 0x100 = 0) →
    off ∉ [0x40000, 0x40010, 0x30002C, 0x400000, 0x20000] →
    Gives (.registerWrite d .bar0 off [(15, v)]) s (fun t =>
      t.m.rd d off = ((s.m.rd d off &&& ~~~(r.rw ||| if s.m.droneRules d then r.fw else 0)) |||
        (v &&& (r.rw ||| if s.m.droneRules d then r.fw else 0))) &&& ~~~(r.w1c &&& v) ∧
      t.m.OnlyRegs s.m [off] ∧ t.img = s.img)) ∧
  (∀ (s : State) d i v, i < 16 → s.m.bar0On d 0x40100 = true →
    (s.m.seqState = 0 → Gives (.registerWrite d .bar0 (0x40100 + 4 * i) [(15, v)]) s (fun t =>
      t.m.rd .a (0x40100 + 4 * i) = (s.m.rd .a (0x40100 + 4 * i) &&& 0xFF000000) ||| (v &&& 0x00FFFFFF) ∧
      t.m.OnlyRegs s.m [0x40100 + 4 * i])) ∧
    (s.m.seqState ≠ 0 →
      Gives (.registerWrite d .bar0 (0x40100 + 4 * i) [(15, v)]) s (fun t =>
        t.m.OnlyRegs s.m [] ∧ (t.m.side d).evt.pend.getLsbD 10 = true ∧ ∃ e, t.m.log = e :: s.m.log ∧ e.args = [((0x40100 + 4 * i : Nat) : Int)]))) ∧
  (∀ (s : State) d k v, k < 4 → s.m.bar0On d 0x100000 = true →
    Gives (.registerWrite d .bar0 (0x100000 + 4 * k) [(15, v)]) s (fun t => (∀ n, n < 128 →
      (t.m.side d).evt.pend.getLsbD n = ((s.m.side d).evt.pend.getLsbD n && !(decide (n / 32 = k) && v.getLsbD (n % 32)))) ∧
      t.m.OnlyRegs s.m [] ∧ t.m.out = s.m.out)) ∧
  (∀ (s : State) d bar off words, off + 4 * words.length ≤ barSize bar → isCfg bar = false → badAccess off words = true →
    s.m.fitted d = true →
    (s.m.side d).st ≠ .down → (s.m.side d).d3 = false → Gives (.registerWrite d bar off words) s (fun t =>
      t.m.get d linkStat 0 8 = min 0xFF (s.m.get d linkStat 0 8 + 1) ∧ t.m.OnlyRegs s.m [] ∧ t.img = s.img)) ∧
  (∀ (s : State) d en v, s.m.fitted d = true → (s.m.side d).endpoint = true →
    Gives (.registerWrite d .msixCtl 0 [(en, v)]) s (fun t => t.img = s.img ∧ t.m.OnlyRegs s.m [] ∧
      (t.m.side d).msix.enable = (if en / 8 % 2 = 1 then bitOf v 31 else (s.m.side d).msix.enable) ∧
      (t.m.side d).msix.funcMask = (if en / 8 % 2 = 1 then bitOf v 30 else (s.m.side d).msix.funcMask)))
/-- How rings are enabled, disabled and rung, and how messages are taken from them. RING_ENABLE starts a ring with HEAD and, but on a
record ring, TAIL at 0; RING_DISABLE stops it with its indices kept, and what was fetched before gets no response on it. While the module
is awake, a valid doorbell of a host-to-module ring moves its TAIL and lets it read again; one of a ring that is off sets BAD_DOORBELL
with event 52. FETCH_ERROR consumes nothing, sets FETCH_ERROR with event 52 and stops the ring's reading; for a write that the host
refused, it sets WB_ERROR with event 52 (that the row stands for such a write is the model's choice, DESIGN CHOICE, the log entry on
FETCH_ERROR). MESSAGE_FETCH takes a sound new command: HEAD goes past its entries and it is in flight; one too long is consumed as one
entry, sets MALFORMED and is answered ST_MALFORMED; while the response ring lacks room, or a ring that comes before it in the turn can be
served and holds entries, nothing is taken. FORWARDED_MESSAGE gives its command the next place in the order. -/
def Obligations.RingEvents : Prop :=
  (∀ (s : State) d n, n < 64 → s.m.bar4On d = true →
    (s.m.ringOn d n = false → Gives (.ringEnable d n) s (fun t => t.m.ringOn d n = true ∧ t.m.ringHead d n = 0 ∧
      (isRecordRing n = false → t.m.ringTail d n = 0 ∧ t.m.out = s.m.out) ∧
      ((t.m.side d).ringAux n).epoch = ((s.m.side d).ringAux n).epoch + 1)) ∧
    (s.m.ringOn d n = true → Gives (.ringEnable d n) s (fun t => t.m = s.tick) ∧
      Gives (.ringDisable d n) s (fun t => t.m.ringOn d n = false ∧ t.m.ringHead d n = s.m.ringHead d n ∧
        t.m.ringTail d n = s.m.ringTail d n ∧ ((t.m.side d).ringAux n).epoch = ((s.m.side d).ringAux n).epoch + 1 ∧
        t.m.flights = s.m.flights ∧ t.m.OnlyRegs s.m [] ∧ t.m.out = s.m.out)) ∧
    (s.m.sleepState = 0 → ringToHost n = false → ∀ w, s.m.doorbellOk d n (w.toNat % 65536) = true →
      Gives (.registerWrite d .bar4 (0x1000 * n + 0x40) [(15, w)]) s (fun t => t.m.ringTail d n = w.toNat % 65536 ∧
        t.m.ringHead d n = s.m.ringHead d n ∧ ((t.m.side d).ringAux n).stalled = false ∧ t.m.out = s.m.out)) ∧
    (s.m.sleepState = 0 → s.m.ringOn d n = false → ∀ w, Gives (.registerWrite d .bar4 (0x1000 * n + 0x40) [(15, w)]) s (fun t =>
      bitOf (t.m.rd d (ringPage n + 0x18)) 29 = true ∧ (t.m.side d).evt.pend.getLsbD 52 = true ∧
      t.m.ringHead d n = s.m.ringHead d n ∧ t.m.ringTail d n = s.m.ringTail d n)) ∧
    (ringToHost n = false → s.m.ringOn d n = true → 0 < s.m.ringHeld d n → Gives (.fetchError d ⟨n, false⟩) s (fun t =>
      bitOf (t.m.rd d (ringPage n + 0x18)) 28 = true ∧ (t.m.side d).evt.pend.getLsbD 52 = true ∧
      ((t.m.side d).ringAux n).stalled = true ∧ t.m.ringHead d n = s.m.ringHead d n ∧ t.m.ringTail d n = s.m.ringTail d n)) ∧
    (s.m.ringOn d n = true → Gives (.fetchError d ⟨n, true⟩) s (fun t =>
      bitOf (t.m.rd d (ringPage n + 0x18)) 27 = true ∧ (t.m.side d).evt.pend.getLsbD 52 = true ∧
      t.m.ringHead d n = s.m.ringHead d n ∧ t.m.ringTail d n = s.m.ringTail d n ∧ t.m.OnlyRegs s.m [] ∧ t.m.log = s.m.log))) ∧
  (∀ (s : State) d n bytes,
    (s.m.mayFetch d n = false → Gives (.messageFetch d n bytes) s (fun t => t.m = s.tick)) ∧
    (∀ c, c < 8 → n < 8 → (c + 7 - (s.m.side d).lastRing % 8) % 8 < (n + 7 - (s.m.side d).lastRing % 8) % 8 → s.m.fetchable d c = true →
      0 < s.m.ringHeld d c → Gives (.messageFetch d n bytes) s (fun t => t.m = s.tick)) ∧
    (s.m.mayFetch d n = true → 0 < s.m.ringHeld d n →
      (numAt bytes 8 2 ≤ 8176 → numAt bytes 8 2 + 16 ≤ 64 * s.m.ringSize d n →
        ceilDiv (16 + numAt bytes 8 2) 64 ≤ s.m.ringHeld d n → badHeader bytes = none →
        s.m.tagVerdict (numAt bytes 4 2) (msgOf d (.ring n) bytes) = .new →
        (∀ f ∈ s.m.flights, f.tag ≠ numAt bytes 0 4) → (∃ c ∈ cmdTable, c.1 = numAt bytes 4 2) →
        Gives (.messageFetch d n bytes) s (fun t =>
          t.m.ringHead d n = (s.m.ringHead d n + ceilDiv (16 + numAt bytes 8 2) 64) % 65536 ∧
          (∃ f, t.m.flights = f :: s.m.flights ∧ f.tag = numAt bytes 0 4 ∧ f.side = d ∧ f.via = .ring n ∧
            f.opcode = numAt bytes 4 2 ∧ f.begun = false ∧ f.epoch = ((s.m.side d).ringAux (respRing n)).epoch) ∧
          (n < 8 → (t.m.side d).lastRing = n) ∧ t.m.tags = s.m.tags ∧ t.m.OnlyRegs s.m [])) ∧
      (8176 < numAt bytes 8 2 ∨ 64 * s.m.ringSize d n < numAt bytes 8 2 + 16 → Gives (.messageFetch d n bytes) s (fun t =>
        t.m.ringHead d n = (s.m.ringHead d n + 1) % 65536 ∧ bitOf (t.m.rd d (ringPage n + 0x18)) 26 = true ∧
        (t.m.side d).evt.pend.getLsbD 52 = true ∧ t.m.flights = s.m.flights ∧ t.m.tags = s.m.tags ∧
        .ringEntry d (respRing n) (s.m.ringAddr d (respRing n) (s.m.ringTail d (respRing n)))
          (respBytes (numAt bytes 4 2) (msgOf d (.ring n) bytes) s.m.token 0 stMalformed (badLong bytes) []) ∈ t.m.out)))) ∧
  (∀ (s : State) d n bytes f xs ys, s.m.mgt d 29 = true → d ≠ s.m.token → s.m.flights = xs ++ f :: ys →
    (∀ g ∈ s.m.flights, g.tag = numAt bytes 0 4 ↔ g = f) → f ∉ xs → f ∉ ys → f.tag = numAt bytes 0 4 → f.side = d →
    f.via = .ring n → f.begun = false →
    Gives (.forwardedMessage d n bytes) s (fun t => t.m = { s.tick with flights := { f with ordered := true } :: (xs ++ ys) }))
/-- How image memory is read, written, scrubbed and its error log popped through the host's window. Where image memory is sound,
BAR2_WRITE stores exactly its bytes at its offset, on the partner too while PARTNER_READY is set, and nothing else, and BAR2_READ returns
the bytes of the side addressed and changes no memory. The firmware area reads zeros and takes no write. A read that meets an
uncorrectable codeword returns all bytes 0xFF poisoned, counts it and raises event 9. SCRUB_READ moves to the next codeword, and a
codeword it corrects is written back, counted and logged. An endpoint that does not answer changes nothing. IMC_ERR_POP discards the
oldest entry. -/
def Obligations.ImageMemoryEvents : Prop :=
  (∀ (s : State) d addr len data,
    (firmwareEnd ≤ addr → (s.m.side d).endpoint = true → (s.m.side d).d3 = false → s.sound d →
      (addr + data.length ≤ memSize s.m.part →
        (s.m.mgt d 29 = true → s.sound d.other) → Gives (.bar2Write d addr data [] []) s (fun t => t.m = s.tick ∧
          (∀ a, (t.img.side d).get a =
            if addr ≤ a ∧ a < addr + data.length then data.getD (a - addr) 0 else (s.img.side d).get a) ∧
          (s.m.mgt d 29 = false → t.img.side d.other = s.img.side d.other) ∧
          (s.m.mgt d 29 = true → ∀ a, (t.img.side d.other).get a =
            if addr ≤ a ∧ a < addr + data.length then data.getD (a - addr) 0 else (s.img.side d.other).get a))) ∧
      (addr + len ≤ memSize s.m.part → Gives (.bar2Read d addr len []) s (fun t => t.img = s.img ∧
        t.m = { s.tick with out := .completion d ((s.img.side d).bytes addr len) false :: s.m.out }))) ∧
    (addr + len ≤ firmwareEnd → (s.m.side d).endpoint = true → (s.m.side d).d3 = false →
      Gives (.bar2Read d addr len []) s (fun t => t.img = s.img ∧
        t.m = { s.tick with out := .completion d (List.replicate len 0) false :: s.m.out })) ∧
    (addr + data.length ≤ firmwareEnd → Gives (.bar2Write d addr data [] []) s (fun t => t.img = s.img ∧ t.m = s.tick)) ∧
    ((s.m.side d).endpoint = false ∨ (s.m.side d).d3 = true → ∀ errs, Gives (.bar2Read d addr len errs) s (fun t =>
      t.img = s.img ∧ t.m = s.tick) ∧ Gives (.bar2Write d addr data errs errs) s (fun t => t.img = s.img ∧ t.m = s.tick)) ∧
    (∀ errs, firmwareEnd ≤ addr → addr + len ≤ memSize s.m.part → 0 < len → addr % 64 + len ≤ 64 → (s.m.side d).endpoint = true →
      (s.m.side d).d3 = false → s.sound d → s.m.fitted d = true → (s.m.side d).st ≠ .down → rsDecode (symAdd [] (errsAt errs (addr / 64))) = none →
      Gives (.bar2Read d addr len errs) s (fun t => .completion d (List.replicate len 0xFF) true ∈ t.m.out ∧
        (t.m.side d).evt.pend.getLsbD 9 = true ∧
        t.m.rd d 0x30000C = BitVec.ofNat 32 (min 0xFFFFFFFF ((s.m.rd d 0x30000C).toNat + 1)) ∧
        (∃ e ∈ t.m.log, e.unit = 0x03 ∧ e.code = 0x0002 ∧ e.severity = 3) ∧ (t.img.side d).cells = (s.img.side d).cells))) ∧
  (∀ (s : State) d errs, s.m.fitted d = true →
    (s.m.get d 0x300000 0 1 = 0 → Gives (.scrubRead d errs) s (fun t => t.m = s.tick ∧ t.img = s.img)) ∧
    (s.m.get d 0x300000 0 1 = 1 → s.sound d → (s.m.side d).imc.scrub % 64 = 0 →
      (s.m.side d).imc.scrub + 64 < memSize s.m.part →
      (errsAt errs ((s.m.side d).imc.scrub / 64) = [] → Gives (.scrubRead d errs) s (fun t => t.img = s.img ∧
        t.m = s.tick.modImc d (fun i => { i with scrub := i.scrub + 64 }))) ∧
      (∀ corr, rsDecode (symAdd [] (errsAt errs ((s.m.side d).imc.scrub / 64))) = some corr → corr ≠ [] →
        Gives (.scrubRead d errs) s (fun t =>
          (s.m.token = d → t.m.rd d 0x300008 = BitVec.ofNat 32 (min 0xFFFFFFFF ((s.m.rd d 0x300008).toNat + 1)) ∧
            (t.m.side d).imc.scrub = (s.m.side d).imc.scrub + 64) ∧
          (∃ e ∈ t.m.log, e.unit = 0x03 ∧ e.code = 0x0001 ∧ e.severity = 2 ∧ e.cls = 0x02) ∧ (t.img.side d).errs = [] ∧
          ∀ a, a / 64 ≠ (s.m.side d).imc.scrub / 64 → (t.img.side d).get a = (s.img.side d).get a)))) ∧
  (∀ (s : State) d, Gives (.imcErrPop d) s (fun t => t.m = s.tick.modImc d (fun i => { i with log := i.log.tail })))

/-- What the instructions of a DMA program do. A channel that runs a program from host memory carries out the instruction that its fetch
returned: NOP goes on to the next; LOOP repeats its body, adding the strides to the bases, or exits; WAIT waits for its tokens; SIGNAL
writes, gives a token and raises its event; JUMP continues at its target and with REWIND reloads the bases; END ends the job with cause 1.
A MOVE from host memory asks for its source, up to 64 KiB of it; one from image memory to host memory that fits one beat writes it; a
range out of the memory stops with cause 10, an absent station's feed with 9. An instruction out of its layout, or with no opcode of the
table, stops with cause 6, and the 4096th without a MOVE or WAIT with cause 2. -/
def Obligations.DmaInstructions : Prop :=
  (∀ (s : State) d ch raw, raw.length = 32 → s.m.dmaRuns d ch →
    (((s.m.side d).dmaOf ch).steps + 1 < 4096 →
      (numAt raw 0 1 = 0 → Gives (.dmaNop d ch raw) s (fun t => t.img = s.img ∧ t.m = s.tick.modDma d ch (fun c =>
        { c with pc := (c.pc + 32) % 2 ^ 64, steps := c.steps + 1, bytes := 0 }))) ∧
      (numAt raw 0 1 = 2 → loopOk raw = true → ∀ left,
        ((if hasBit (numAt raw 1 1) 0 then ((s.m.side d).dmaOf ch).l1 else ((s.m.side d).dmaOf ch).l0).getD (numAt raw 4 4)) = left →
        Gives (.dmaLoop d ch raw) s (fun t => t.img = s.img ∧
          (if hasBit (numAt raw 1 1) 0 then ((t.m.side d).dmaOf ch).l0 else ((t.m.side d).dmaOf ch).l1) =
            (if hasBit (numAt raw 1 1) 0 then ((s.m.side d).dmaOf ch).l0 else ((s.m.side d).dmaOf ch).l1) ∧
          (left ≤ 1 → (if hasBit (numAt raw 1 1) 0 then ((t.m.side d).dmaOf ch).l1 else ((t.m.side d).dmaOf ch).l0) = none ∧
            ((t.m.side d).dmaOf ch).pc = (((s.m.side d).dmaOf ch).pc + 32) % 2 ^ 64 ∧
            ((t.m.side d).dmaOf ch).b0 = ((s.m.side d).dmaOf ch).b0 ∧ ((t.m.side d).dmaOf ch).b1 = ((s.m.side d).dmaOf ch).b1) ∧
          (1 < left →
            (if hasBit (numAt raw 1 1) 0 then ((t.m.side d).dmaOf ch).l1 else ((t.m.side d).dmaOf ch).l0) = some (left - 1) ∧
            (0 ≤ (((s.m.side d).dmaOf ch).pc : Int) + intAt raw 8 4 →
              ((t.m.side d).dmaOf ch).pc = ((((s.m.side d).dmaOf ch).pc : Int) + intAt raw 8 4).toNat % 2 ^ 64) ∧
            ((t.m.side d).dmaOf ch).b0 = (((s.m.side d).dmaOf ch).b0 + numAt raw 16 8) % 2 ^ 64 ∧
            ((t.m.side d).dmaOf ch).b1 = (((s.m.side d).dmaOf ch).b1 + numAt raw 24 8) % 2 ^ 64))) ∧
      (numAt raw 0 1 = 5 → jumpOk raw = true → Gives (.dmaJump d ch raw) s (fun t => t.img = s.img ∧
        (hasBit (numAt raw 1 1) 0 = true → ((t.m.side d).dmaOf ch).pc = numAt raw 8 8) ∧
        (hasBit (numAt raw 1 1) 0 = false → 0 ≤ (((s.m.side d).dmaOf ch).pc : Int) + intAt raw 4 4 →
          ((t.m.side d).dmaOf ch).pc = ((((s.m.side d).dmaOf ch).pc : Int) + intAt raw 4 4).toNat % 2 ^ 64) ∧
        (hasBit (numAt raw 1 1) 1 = true → ((t.m.side d).dmaOf ch).b0 = ((s.m.side d).dmaOf ch).b0Init ∧
          ((t.m.side d).dmaOf ch).b1 = ((s.m.side d).dmaOf ch).b1Init ∧ ((t.m.side d).dmaOf ch).l0 = none ∧
          ((t.m.side d).dmaOf ch).l1 = none) ∧
        (hasBit (numAt raw 1 1) 1 = false → ((t.m.side d).dmaOf ch).b0 = ((s.m.side d).dmaOf ch).b0 ∧
          ((t.m.side d).dmaOf ch).l0 = ((s.m.side d).dmaOf ch).l0))) ∧
      (numAt raw 0 1 = 4 → signalOk raw = true → Gives (.dmaSignal d ch raw) s (fun t => t.img = s.img ∧
        ((t.m.side d).dmaOf ch).pc = (((s.m.side d).dmaOf ch).pc + 32) % 2 ^ 64 ∧
        (hasBit (numAt raw 1 1) 2 = true → .hostWrite d (numAt raw 8 8) (bytesAt raw 4 4) ∈ t.m.out) ∧
        (hasBit (numAt raw 1 1) 0 = true → ((s.m.side d).dmaOf (numAt raw 2 1)).tokens < 65535 →
          ((t.m.side d).dmaOf (numAt raw 2 1)).tokens = ((s.m.side d).dmaOf (numAt raw 2 1)).tokens + 1) ∧
        (hasBit (numAt raw 1 1) 1 = true → bitOf (t.m.rd d (dmaBase ch + 4)) 25 = true ∧
          (t.m.side d).evt.pend.getLsbD (16 + ch) = true)))) ∧
    (numAt raw 0 1 = 3 → waitOk raw = true → Gives (.dmaWait d ch raw) s (fun t => t.img = s.img ∧ t.m = s.tick.modDma d ch (fun c =>
      { c with state := .waiting, need := numAt raw 4 4, steps := c.steps + 1, bytes := 0 }))) ∧
    (numAt raw 0 1 = 6 → numAt raw 1 1 < 2 → numAt raw 2 30 = 0 → Gives (.dmaEnd d ch raw) s (fun t => t.img = s.img ∧
      ((t.m.side d).dmaOf ch).state = .idle ∧ ((t.m.side d).dmaOf ch).cause = 1 ∧
      ((t.m.side d).dmaOf ch).pc = ((s.m.side d).dmaOf ch).pc ∧
      (∀ a, ((s.m.side d).dmaOf ch).complete = some a → .hostWrite d a (leBytes 4 ((s.m.side d).dmaOf ch).jobTag ++ leBytes 1 1 ++
        leBytes 3 0 ++ leBytes 4 ((((s.m.side d).dmaOf ch).pc + 2 ^ 64 - ((s.m.side d).dmaOf ch).program) % 2 ^ 64) ++
        leBytes 4 0) ∈ t.m.out) ∧
      (numAt raw 1 1 = 1 → bitOf (t.m.rd d (dmaBase ch + 4)) 28 = true ∧ (t.m.side d).evt.pend.getLsbD (16 + ch) = true))) ∧
    (4096 ≤ ((s.m.side d).dmaOf ch).steps + 1 → numAt raw 0 1 = 0 → Gives (.dmaNop d ch raw) s (fun t =>
      t.m.DmaStopped s.m d ch 2 ((((s.m.side d).dmaOf ch).pc + 32) % 2 ^ 64))) ∧
    (6 < numAt raw 0 1 → Gives (.dmaNop d ch raw) s (fun t => t.img = s.img ∧ t.m.DmaStopped s.m d ch 6 ((s.m.side d).dmaOf ch).pc)) ∧
    (numAt raw 0 1 = 1 → moveOk raw = false → ∀ errs, Gives (.dmaMove d ch raw errs) s (fun t =>
      t.img = s.img ∧ t.m.DmaStopped s.m d ch 6 ((s.m.side d).dmaOf ch).pc)) ∧
    (numAt raw 0 1 = 1 → moveOk raw = true → ∀ errs,
      (numAt raw 2 1 = 0 → numAt raw 3 1 = 0 → hasBit (numAt raw 1 1) 0 = false → Gives (.dmaMove d ch raw errs) s (fun t =>
        t.img = s.img ∧ t.m.out = .hostRead d (numAt raw 8 8) (min (numAt raw 4 4) moveWindow) :: s.m.out ∧
        ((t.m.side d).dmaOf ch).bytes = 0 ∧ ((t.m.side d).dmaOf ch).pc = ((s.m.side d).dmaOf ch).pc ∧
        ∃ mv, ((t.m.side d).dmaOf ch).move = some mv ∧ mv.src = numAt raw 8 8 ∧ mv.length = numAt raw 4 4 ∧
          mv.asked = min (numAt raw 4 4) moveWindow ∧ mv.pending = [])) ∧
      (numAt raw 2 1 = 0 → numAt raw 3 1 = 1 → hasBit (numAt raw 1 1) 1 = false → numAt raw 16 8 < firmwareEnd →
        Gives (.dmaMove d ch raw errs) s (fun t => t.img = s.img ∧ t.m.DmaStopped s.m d ch 10 ((s.m.side d).dmaOf ch).pc ∧
          ((t.m.side d).dmaOf ch).faultAddr = numAt raw 16 8)) ∧
      (numAt raw 2 1 = 0 → numAt raw 3 1 = 2 → hasBit (numAt raw 1 1) 1 = false → stationsOf s.m.part ≤ numAt raw 16 8 →
        Gives (.dmaMove d ch raw errs) s (fun t => t.img = s.img ∧ t.m.DmaStopped s.m d ch 9 ((s.m.side d).dmaOf ch).pc)) ∧
      (numAt raw 2 1 = 1 → numAt raw 3 1 = 0 → numAt raw 1 1 = 0 → firmwareEnd ≤ numAt raw 8 8 →
        numAt raw 8 8 + numAt raw 4 4 ≤ memSize s.m.part → numAt raw 16 8 % 64 + numAt raw 4 4 ≤ 64 → s.sound d →
        Gives (.dmaMove d ch raw []) s (fun t => t.img = s.img ∧
          t.m.out = .hostWrite d (numAt raw 16 8) ((s.img.side d).bytes (numAt raw 8 8) (numAt raw 4 4)) :: s.m.out ∧
          ((t.m.side d).dmaOf ch).bytes = numAt raw 4 4 ∧ ((t.m.side d).dmaOf ch).state = .running))))

/-- How DMA jobs start, MOVEs advance and channels wait and stop. DMA_ENABLE sets ENABLE. DMA_JOB_FETCH of an idle, enabled channel whose
ring does not wait after a fetch error takes the entry: HEAD advances and a sound entry's program starts, another stops with cause 7.
DMA_READ_COMPLETION whose bytes end the one beat of a MOVE writes it. DMA_FEED_SPACE writes what a blocked MOVE holds once the feed has
room, and MOVE_COMPLETE of a MOVE wholly written goes on to the next instruction, counts it and with FULL_IRQ raises the event. WAIT_DONE
takes the tokens, PACE_TIMER gives one or at 65 535 sets TOKEN_OVF. BUS_TIMEOUT and HOST_ERROR stop a channel that waits for a host read
with causes 3 and 4, one that a full feed blocks only once the beats before the failed request are written; DISABLE leaves it idle with
cause 8, without event; RESUME lets a stopped one go on. -/
def Obligations.DmaEvents : Prop :=
  ∀ (s : State) d ch, ch < 32 → s.m.fitted d = true →
    (∀ b, Gives (.dmaEnable d ch b) s (fun t => bitOf (t.m.rd d (dmaBase ch)) 31 = b ∧ t.m.OnlyRegs s.m [dmaBase ch] ∧
      (t.m.side d).dma = (s.m.side d).dma)) ∧
    (∀ entry, bitOf (s.m.rd d (dmaBase ch)) 31 = true → s.m.ringOn d (16 + ch) = true → ((s.m.side d).dmaOf ch).state = .idle →
      0 < s.m.ringHeld d (16 + ch) → ((s.m.side d).ringAux (16 + ch)).stalled = false → (s.m.side d).st ≠ .down →
      Gives (.dmaJobFetch d ch entry) s (fun t =>
        t.m.ringHead d (16 + ch) = (s.m.ringHead d (16 + ch) + 1) % 65536 ∧
        (jobEntryOk entry = true → ((t.m.side d).dmaOf ch).state = .running ∧ ((t.m.side d).dmaOf ch).pc = numAt entry 8 8 ∧
          ((t.m.side d).dmaOf ch).jobTag = numAt entry 0 4 ∧ ((t.m.side d).dmaOf ch).b0 = numAt entry 16 8 ∧
          ((t.m.side d).dmaOf ch).b1 = numAt entry 24 8 ∧ ((t.m.side d).dmaOf ch).l0 = none ∧
          ((t.m.side d).dmaOf ch).tokens = ((s.m.side d).dmaOf ch).tokens ∧ t.m.log = s.m.log) ∧
        (jobEntryOk entry = false → t.m.DmaStopped s.m d ch 7 (numAt entry 8 8)))) ∧
    (((s.m.side d).dmaOf ch).state = .waiting →
      (((s.m.side d).dmaOf ch).need ≤ ((s.m.side d).dmaOf ch).tokens → Gives (.dmaWaitDone d ch) s (fun t =>
        ((t.m.side d).dmaOf ch).state = .running ∧
        ((t.m.side d).dmaOf ch).tokens = ((s.m.side d).dmaOf ch).tokens - ((s.m.side d).dmaOf ch).need ∧
        ((t.m.side d).dmaOf ch).pc = (((s.m.side d).dmaOf ch).pc + 32) % 2 ^ 64 ∧ ((t.m.side d).dmaOf ch).steps = 0)) ∧
      (((s.m.side d).dmaOf ch).tokens < ((s.m.side d).dmaOf ch).need → Gives (.dmaWaitDone d ch) s (fun t => t.m = s.tick))) ∧
    (s.m.get d (dmaBase ch + 8) 16 16 ≠ 0 →
      (((s.m.side d).dmaOf ch).tokens < 65535 → Gives (.dmaPaceTimer d ch) s (fun t =>
        ((t.m.side d).dmaOf ch).tokens = ((s.m.side d).dmaOf ch).tokens + 1)) ∧
      (((s.m.side d).dmaOf ch).tokens = 65535 → Gives (.dmaPaceTimer d ch) s (fun t =>
        ((t.m.side d).dmaOf ch).tokens = 65535 ∧ bitOf (t.m.rd d (dmaBase ch + 4)) 23 = true))) ∧
    (∀ mv, ((s.m.side d).dmaOf ch).move = some mv → (s.m.side d).st ≠ .down →
      (mv.length ≤ ((s.m.side d).dmaOf ch).bytes → Gives (.dmaMoveComplete d ch) s (fun t =>
        ((t.m.side d).dmaOf ch).move = none ∧ ((t.m.side d).dmaOf ch).state = .running ∧
        ((t.m.side d).dmaOf ch).pc = (((s.m.side d).dmaOf ch).pc + 32) % 2 ^ 64 ∧ ((t.m.side d).dmaOf ch).steps = 0 ∧
        t.m.rd d (dmaBase ch + 0x40) = s.m.rd d (dmaBase ch + 0x40) + 1 ∧
        (mv.fullIrq = true → bitOf (t.m.rd d (dmaBase ch + 4)) 26 = true ∧ (t.m.side d).evt.pend.getLsbD (16 + ch) = true))) ∧
      (((s.m.side d).dmaOf ch).bytes < mv.length → Gives (.dmaMoveComplete d ch) s (fun t => t.m = s.tick)) ∧
      (∀ data, mv.srcImage = false → mv.dstSpace = 0 → mv.pending = [] → mv.asked = mv.length → mv.bad = none → ((s.m.side d).dmaOf ch).state = .running →
        ((s.m.side d).dmaOf ch).bytes = 0 → data.length = mv.length → 0 < mv.length → mv.dst % 64 + mv.length ≤ 64 →
        Gives (.dmaReadCompletion d ch data []) s (fun t => t.img = s.img ∧ .hostWrite d mv.dst data ∈ t.m.out ∧
          ((t.m.side d).dmaOf ch).bytes = mv.length ∧
          (mv.halfIrq = true → bitOf (t.m.rd d (dmaBase ch + 4)) 27 = true ∧ (t.m.side d).evt.pend.getLsbD (16 + ch) = true))) ∧
      (∀ data, mv.srcImage = false → mv.dstSpace = 1 → mv.pending = [] → mv.asked = mv.length → mv.bad = none → ((s.m.side d).dmaOf ch).state = .running →
        ((s.m.side d).dmaOf ch).bytes = 0 → data.length = mv.length → 0 < mv.length → mv.dst % 64 + mv.length ≤ 64 →
        mv.dst + mv.length ≤ memSize s.m.part → s.m.mgt d 29 = false → s.sound d →
        Gives (.dmaReadCompletion d ch data []) s (fun t => t.img.side d.other = s.img.side d.other ∧
          (∀ a, (t.img.side d).get a =
            if mv.dst ≤ a ∧ a < mv.dst + mv.length then data.getD (a - mv.dst) 0 else (s.img.side d).get a) ∧
          ((t.m.side d).dmaOf ch).bytes = mv.length)) ∧
      (mv.dstSpace = 2 → mv.bad = none → mv.asked = mv.length → ((s.m.side d).dmaOf ch).state = .blocked → mv.halfIrq = false →
        mv.pending.length = mv.length - ((s.m.side d).dmaOf ch).bytes → 0 < mv.pending.length →
        ((s.m.side d).dmaOf ch).bytes % 64 + mv.pending.length ≤ 64 →
        (tabGet [] (s.m.side d).feeds mv.dst).length + mv.pending.length ≤ 262144 → s.m.mgt d 29 = false →
        (s.m.decOf mv.dst).state = .decode → Gives (.dmaFeedSpace d ch) s (fun t => t.img = s.img ∧
          tabGet [] (t.m.side d).feeds mv.dst = tabGet [] (s.m.side d).feeds mv.dst ++ mv.pending ∧
          ((t.m.side d).dmaOf ch).state = .running ∧ ((t.m.side d).dmaOf ch).bytes = mv.length))) ∧
    ((s.m.side d).st ≠ .down → ∀ addr,
      let left (mv : DmaMove) : List Byte := mv.pending.take (addr - mv.src - ((s.m.side d).dmaOf ch).bytes);
      let beat (mv : DmaMove) : Nat :=
        min (64 - ((s.m.side d).dmaOf ch).bytes % 64) (mv.length - ((s.m.side d).dmaOf ch).bytes);
      (((s.m.side d).dmaOf ch).hostWait = true → (((s.m.side d).dmaOf ch).state = .running ∨
          ∃ mv, ((s.m.side d).dmaOf ch).move = some mv ∧ (left mv).length < beat mv) →
        Gives (.dmaBusTimeout d ch addr) s (fun t => t.m.DmaStopped s.m d ch 3 ((s.m.side d).dmaOf ch).pc ∧
          ((t.m.side d).dmaOf ch).faultAddr = addr) ∧
        Gives (.dmaHostError d ch addr) s (fun t => t.m.DmaStopped s.m d ch 4 ((s.m.side d).dmaOf ch).pc ∧
          ((t.m.side d).dmaOf ch).faultAddr = addr)) ∧
      (((s.m.side d).dmaOf ch).hostWait = true → ((s.m.side d).dmaOf ch).state = .blocked →
        ∀ mv, ((s.m.side d).dmaOf ch).move = some mv → beat mv ≤ (left mv).length →
        Gives (.dmaBusTimeout d ch addr) s (fun t =>
          t.m = s.tick.modDma d ch (fun c => { c with move := some { mv with pending := left mv, bad := some (addr, 3) } })) ∧
        Gives (.dmaHostError d ch addr) s (fun t =>
          t.m = s.tick.modDma d ch (fun c => { c with move := some { mv with pending := left mv, bad := some (addr, 4) } }))) ∧
      (((s.m.side d).dmaOf ch).hostWait = false → Gives (.dmaBusTimeout d ch addr) s (fun t => t.m = s.tick) ∧
        Gives (.dmaHostError d ch addr) s (fun t => t.m = s.tick))) ∧
    ((∀ mv, ((s.m.side d).dmaOf ch).move = some mv → mv.dstSpace = 1 → s.sound d ∧ (s.m.mgt d 29 = true → s.sound d.other)) →
      Gives (.dmaDisable d ch) s (fun t => bitOf (t.m.rd d (dmaBase ch)) 31 = false ∧ ((t.m.side d).dmaOf ch).tokens = 0 ∧
      (((s.m.side d).dmaOf ch).state = .running ∨ ((s.m.side d).dmaOf ch).state = .waiting ∨ ((s.m.side d).dmaOf ch).state = .blocked →
        ((t.m.side d).dmaOf ch).state = .idle ∧ ((t.m.side d).dmaOf ch).cause = 8 ∧ ((t.m.side d).dmaOf ch).move = none) ∧
      (((s.m.side d).dmaOf ch).state = .idle ∨ ((s.m.side d).dmaOf ch).state = .stopped →
        ((t.m.side d).dmaOf ch).state = ((s.m.side d).dmaOf ch).state) ∧
      (((s.m.side d).dmaOf ch).move = none → t.img = s.img ∧ (t.m.side d).evt = (s.m.side d).evt))) ∧
    (((s.m.side d).dmaOf ch).state = .stopped → Gives (.dmaResume d ch) s (fun t =>
      ((t.m.side d).dmaOf ch).state = .idle ∧ ((t.m.side d).dmaOf ch).cause = 0 ∧ ((t.m.side d).dmaOf ch).fault = false ∧
      t.m.OnlyRegs s.m []))
/-- How planes are encoded, panels composed and stations' decoders advance. PLANE_ENCODE_DONE, where its plane reads sound and its output
fits, writes exactly the codec stream at its place, defines the plane, counts it and answers; with an uncorrectable codeword no plane
comes to be. PANEL_COMPOSE_START starts the first queued panel if the pool has room; PANEL_READY ends the one composing, counts it, logs
nothing if every field composes, and a panel past a deadline raises event 76. DECODER_LINE_DONE of a raw plane takes its next line, into
the buffer if the page exposes; DECODER_PAGE_BOUNDARY saves the page's state record and rests, DECODER_PAGE_BEGIN begins the next page
once it is due, FEED_SEEK_FOUND ends the seek at a valid header. -/
def Obligations.ImagePathEvents : Prop :=
  (∀ (s : State) j rest, s.m.encodes = j :: rest → s.m.inService s.m.token = true → s.m.inService s.m.token.other = false →
    (∃ w ∈ s.m.awaits, w.msg.tag = j.tag) → s.sound s.m.token → j.src.off + j.src.bytes ≤ memSize s.m.part →
    j.limit ≤ memSize s.m.part →
    (∀ out, out = encodePlane j.cfg j.src.width (rawLines j.src ((s.img.side s.m.token).bytes j.src.off j.src.bytes)) →
      j.start + out.length ≤ j.limit → Gives (.planeEncodeDone none none) s (fun t =>
        (∃ id, tabFind t.m.planes id = some ⟨j.region, j.start, true, j.src.width, j.src.lines, out.length⟩ ∧
          ∀ k, k ≠ id → tabFind t.m.planes k = tabFind s.m.planes k) ∧
        (∀ a, (t.img.side s.m.token).get a =
          if j.start ≤ a ∧ a < j.start + out.length then out.getD (a - j.start) 0 else (s.img.side s.m.token).get a) ∧
        t.m.rdA 0x40000C = s.m.rdA 0x40000C + 1 ∧ t.m.encodes.length = rest.length ∧
        (∀ w ∈ t.m.awaits, w.msg.tag ≠ j.tag) ∧ t.m.tags.head?.map TagRec.tag = some j.tag)) ∧
    (∀ w, Gives (.planeEncodeDone (if s.m.token = .a then some w else none) (if s.m.token = .b then some w else none)) s (fun t =>
      t.m.planes = s.m.planes ∧ t.m.encodes.length = rest.length ∧ (∀ w ∈ t.m.awaits, w.msg.tag ≠ j.tag)))) ∧
  (∀ s : State, s.m.encodes = [] → ∀ x y, Gives (.planeEncodeDone x y) s (fun t => t.m = s.tick ∧ t.img = s.img)) ∧
  (∀ (s : State) key y i k p, s.m.panelOf key i = some (k, p) →
    (s.m.composeOf .queued = [(key, y, i)] →
      (s.m.poolUsed + p.area (s.m.tplBytes k.tplSet) ≤ poolBits → Gives .panelComposeStart s (fun t => t.m.log = s.m.log ∧
        t.m.OnlyRegs s.m [] ∧ ∃ k', t.m.panelOf key i = some (k', { p with compose := .composing }))) ∧
      (poolBits < s.m.poolUsed + p.area (s.m.tplBytes k.tplSet) → Gives .panelComposeStart s (fun t => t.m = s.tick))) ∧
    (s.m.composeOf .composing = [(key, y, i)] →
      (s.m.lateOf k (s.m.encPos (((tabFind s.m.jobs k.job).map Job.encoder).getD 0)) = [] → Gives (.panelReady ⟨none, []⟩) s (fun t =>
        t.m.rdA 0x500008 = s.m.rdA 0x500008 + 1 ∧ ∃ k' q, t.m.panelOf key i = some (k', q) ∧ q.compose = .ready ∧
          ((∀ f ∈ p.fields (s.m.tplBytes k.tplSet), ∃ c, s.m.composeOne k p (s.m.tplBytes k.tplSet) none f = .ok c) →
            q.failed = p.failed ∧ t.m.log = s.m.log))) ∧
      (s.m.lateOf k (s.m.encPos (((tabFind s.m.jobs k.job).map Job.encoder).getD 0)) ≠ [] →
        Gives (.panelReady ⟨none, []⟩) s (fun t => t.m.Pending 76 ∧ ∃ e ∈ t.m.log, e.unit = 0x05 ∧ e.code = 0x0001 ∧ e.severity = 2)))) ∧
  (∀ s : State, s.m.composeOf .queued = [] → s.m.composeOf .composing = [] →
    Gives .panelComposeStart s (fun t => t.m = s.tick) ∧ ∀ bad errs, Gives (.panelReady ⟨bad, errs⟩) s (fun t => t.m = s.tick)) ∧
  (∀ (s : State) st p src, (s.m.decOf st).page = some p → p.src = some src → src.codec = false → (s.m.decOf st).state = .decode →
    (s.m.decOf st).blanked = false → (s.m.decOf st).ended = false → (s.m.decOf st).line < p.lines → (s.m.decOf st).line < src.lines →
    (∀ e ∈ s.m.pages, e.2.panels = []) → s.sound s.m.token → (s.m.inService s.m.token.other = true → s.sound s.m.token.other) →
    (s.m.isDry p = true → Gives (.decoderLineDone st ⟨[], none⟩) s (fun t => t.img = s.img ∧
      (t.m.decOf st).line = (s.m.decOf st).line + 1 ∧ (t.m.stnOf st).buffer = (s.m.stnOf st).buffer)) ∧
    (∀ k, tabFind s.m.pages p.key = some k → k.skipped = false → (s.m.stnOf st).buffer.length < 128 / s.m.fine st →
      s.m.judgedOf st p.key < ((s.m.decOf st).line + 1) * s.m.fine st → Gives (.decoderLineDone st ⟨[], none⟩) s (fun t => t.img = s.img ∧
        (t.m.decOf st).line = (s.m.decOf st).line + 1 ∧
        ∃ l, (t.m.stnOf st).buffer = (s.m.stnOf st).buffer ++ [l] ∧ l.page = p.key ∧ l.y = (s.m.decOf st).line ∧ l.blank = false))) ∧
  (∀ (s : State) st,
    ((s.m.decOf st).page = none → (∀ errs b, Gives (.decoderLineDone st ⟨errs, b⟩) s (fun t => t.m = s.tick ∧ t.img = s.img)) ∧
      Gives (.decoderPageBoundary st) s (fun t => t.m = s.tick)) ∧
    (∀ p, (s.m.decOf st).page = some p →
      ((s.m.decOf st).line < p.lines → (s.m.decOf st).blanked = false → Gives (.decoderPageBoundary st) s (fun t => t.m = s.tick)) ∧
      (p.lines ≤ (s.m.decOf st).line → (s.m.decOf st).fromFeed = false → Gives (.decoderPageBoundary st) s (fun t =>
        (t.m.decOf st).state = .idle ∧ (t.m.decOf st).queue = (s.m.decOf st).queue.tail ∧ (t.m.decOf st).ready = true ∧
        (t.m.decOf st).savedPage = p.pageNo ∧
        (t.m.decOf st).saved = stateRecord st s.m.armed p (s.m.isDry p && !(s.m.decOf st).shown) (s.m.decOf st)))) ∧
    (∀ p q, (s.m.decOf st).queue = p :: q → (s.m.decOf st).state = .idle → (s.m.decOf st).ready = true →
      (s.m.decodeDue st p = true → Gives (.decoderPageBegin st) s (fun t => (t.m.decOf st).state = .decode ∧
        (t.m.decOf st).queue = p :: q ∧ (t.m.decOf st).line = 0 ∧ (t.m.decOf st).fromFeed = p.src.isNone ∧
        (t.m.decOf st).blanked = false ∧ (s.m.shadowed = false → (t.m.decOf st).st = (s.m.decOf st).st))) ∧
      (s.m.decodeDue st p = false → Gives (.decoderPageBegin st) s (fun t => t.m = s.tick))) ∧
    ((s.m.decOf st).state ≠ .seek → Gives (.feedSeekFound st) s (fun t => t.m = s.tick)) ∧
    ((s.m.decOf st).state = .seek → s.m.fitted s.m.token = true →
      seekHit ((s.m.feedOf st).drop ((s.m.feedOf st).length - (seekDrop (s.m.feedOf st)).length)) = true →
      Gives (.feedSeekFound st) s (fun t => (t.m.decOf st).state = .decode ∧ (t.m.decOf st).ended = true ∧
        t.m.feedOf st = (s.m.feedOf st).drop ((s.m.feedOf st).length - (seekDrop (s.m.feedOf st)).length))))

/-- How stations' synthesizers, LED heads and emitters, deferred commands and cost reads act. With a job and no page in flight, an SOS of
an acquiring station that completes LOCK_N good ones locks it with its log entry where the grid frequency lies within its limits; one of a
coasting station locks it again; a used sweep counts in PXC_SWEEPS. SOS_MISSED counts a missed SOS and lets a locked station coast up to
COAST_MAX, then acquire. EOS ends a sweep, with its log entry where it deviates and EOS is checked. LED_PLANE_LATCH takes the next plane.
BEAM_FAULT latches its bit, declares the beam failed and logs class 0x06. Outside a job, none acts. DEFERRED_COMMAND_RUN runs the oldest
deferred command where it may start, and answers an HV_SET. -/
def Obligations.StationEvents : Prop :=
  (∀ (s : State) st, st < 6 → s.m.tracking = true → s.m.inJob st = true → s.m.isLaser st = true → s.m.pages = [] →
    (s.m.stnOf st).sweepOpen = false → s.m.facetIdOn st = false → (s.m.stnOf st).seen = false → ∀ q ipos,
    (s.m.facetUsed st 0 = false →
      (s.m.sync st = 1 → q.natAbs * 10000 ≤ s.m.lockWin st * 2 ^ 20 → s.m.lockN st ≤ (s.m.stnOf st).goodRun + 1 →
        Gives (.sosValid st q ipos) s (fun t => t.m.sync st = (if s.tick.gridOut st then 1 else 2) ∧ (t.m.stnOf st).seen = true ∧
          (s.tick.gridOut st = false → ∃ e ∈ t.m.log, e.unit = 0x0C ∧ e.inst = st ∧ e.code = 0x0001 ∧ e.severity = 0))) ∧
      (s.m.sync st = 3 → Gives (.sosValid st q ipos) s (fun t => t.m.sync st = 2 ∧ (t.m.stnOf st).missedRun = 0))) ∧
    (s.m.facetUsed st 0 = true → s.m.sync st = 1 → (s.m.stnOf st).goodRun + 1 < s.m.lockN st →
      (∀ k, 70 ≤ k → k < 256 → loopTrig (s.m.loopOf k).desc ≠ 2) →
      Gives (.sosValid st q ipos) s (fun t => t.m.sync st = 1 ∧
        t.m.rdA (pxcBase st + 0x24) = s.m.rdA (pxcBase st + 0x24) + 1))) ∧
  (∀ (s : State) st, st < 6 → s.m.tracking = true → s.m.inJob st = true → s.m.isLaser st = true → s.m.pages = [] →
    ((s.m.stnOf st).seen = true → (s.m.stnOf st).sweepOpen = false → s.m.sync st = 2 →
      Gives (.sosMissed st) s (fun t => t.m.getA (pxcStat st) 0 16 = min 0xFFFF (s.m.getA (pxcStat st) 0 16 + 1) ∧
        (t.m.stnOf st).missedRun = (s.m.stnOf st).missedRun + 1 ∧
        t.m.sync st = (if (s.m.stnOf st).missedRun + 1 ≤ s.m.coastMax st then 3 else 1) ∧
        ∃ e ∈ t.m.log, e.unit = 0x0C ∧ e.inst = st ∧ e.code = 0x0003 ∧ e.severity = 2)) ∧
    ((s.m.stnOf st).sweepOpen = true → ∀ dev,
      ((∃ v : Int, dev = some v ∧ (v.natAbs ≤ max 1 (s.m.getA (pxcBase st + 0x10) 16 8))) → Gives (.eos st dev) s (fun t =>
        (t.m.stnOf st).sweepOpen = false ∧ t.m.log = s.m.log)) ∧
      ((dev = none ∨ ∃ v : Int, dev = some v ∧ max 1 (s.m.getA (pxcBase st + 0x10) 16 8) < v.natAbs) →
        s.m.bitA (pxcBase st) 11 = true → Gives (.eos st dev) s (fun t => (t.m.stnOf st).sweepOpen = false ∧
          ∃ e ∈ t.m.log, e.unit = 0x0C ∧ e.inst = st ∧ e.code = 0x0006 ∧ e.severity = 2)))) ∧
  (∀ (s : State) st, s.m.inJob st = false → (∀ q ipos, Gives (.sosValid st q ipos) s (fun t => t.m = s.tick)) ∧
    Gives (.sosMissed st) s (fun t => t.m = s.tick) ∧ (∀ dev, Gives (.eos st dev) s (fun t => t.m = s.tick)) ∧
    (∀ p, Gives (.ledPlaneLatch st p) s (fun t => t.m = s.tick))) ∧
  (∀ (s : State) st line key y at_, st < 6 → s.m.inJob st = true → (s.m.stnOf st).ledLine = some line → s.m.ledNext st = some (key, y, at_) →
    (s.m.stnOf st).ledPlane + 2 < setPlanes (s.m.stnOf st).set →
    Gives (.ledPlaneLatch st ((s.m.stnOf st).ledPlane + 1)) s (fun t => (t.m.stnOf st).ledPlane = (s.m.stnOf st).ledPlane + 1 ∧
      (t.m.stnOf st).ledLine = some line ∧ t.m.OnlyRegs s.m [] ∧
      (s.m.mayEmit = true → ∃ bits ns, t.m.out = .strobe st line ((s.m.stnOf st).ledPlane + 1) bits ns :: s.m.out) ∧
      (s.m.mayEmit = false → t.m.out = s.m.out))) ∧
  (∀ (s : State) st beam kind bit, (kind, bit) ∈ [(BeamFaultKind.openCircuit, 31), (.shortCircuit, 30), (.overload, 29)] →
    s.m.inService s.m.token = true → st < stationsOf s.m.part → beam < 32 → s.m.beamEnabled st beam = true →
    s.m.bitA (scbBase st + 0x14) beam = false → s.m.awaits = [] →
    (if kind = .overload then 2 ≤ s.m.getA (beamBase st beam) 28 3 ∧ s.m.getA (beamBase st beam) 28 3 ≤ 4
      else s.m.getA (beamBase st beam) 28 3 = 1) →
    Gives (.beamFault st beam kind) s (fun t => t.m.bitA (beamBase st beam + 0xC) bit = true ∧
      t.m.bitA (scbBase st + 0x14) beam = true ∧
      ∃ e ∈ t.m.log, e.unit = 0x0C ∧ e.inst = st ∧ e.code = 0x0008 ∧ e.severity = 3 ∧ e.cls = 0x06)) ∧
  (∀ s : State, (s.m.deferred = [] → Gives .deferredCommandRun s (fun t => t.m = s.tick)) ∧
    (∀ w rest, s.m.deferred = w :: rest →
      (s.tick.mayStart w = false → Gives .deferredCommandRun s (fun t => t.m = s.tick)) ∧
      (s.tick.mayStart w = true → w.opcode = 0x0803 → Gives .deferredCommandRun s (fun t => t.m.deferred = rest ∧
        t.m.tags.head?.map TagRec.tag = some w.msg.tag))))
/-- How a side starts up, step by step. In their turn: OTP_READ_DONE ends step 2 and shows whether shutdown records wait;
KNOWN_ANSWER_TESTS_DONE with no failure ends step 3, with one the core is in error with event 120; ENDPOINT_READY starts the endpoint; a
bank verified sets FW_OK and shows the bank, a bad one raises event 127 and after the second RECOVERY is set; DRAM_TRAINED ends step 6;
SLICE_INITIALISED writes zeros into exactly its slice and sets its bit; APP_READY sets APP_READY; REDUCED_SERVICE sets MBOX_READY and
REDUCED with event 1, and the side with the token is in service; PXC_READY sets PXC_READY; ENGINE_READY sets ENGINE_READY, clears REDUCED,
raises event 0 and logs. -/
def Obligations.StartUpSteps : Prop :=
  ∀ (s : State) d, s.m.fitted d = true →
    ((s.m.side d).st = .starting →
      ((s.m.side d).step < 2 → Gives (.otpReadDone d) s (fun t => (t.m.side d).step = 2 ∧ (t.m.side d).st = .starting ∧
        t.m.mgt d 20 = !s.m.shut.recs.isEmpty)) ∧
      ((s.m.side d).step = 2 → (s.m.side d).core.error = false →
        Gives (.knownAnswerTestsDone d 0) s (fun t => (t.m.side d).step = 3 ∧ t.m.get d 0xFE0000 29 3 = 1 ∧
          t.m.OnlyRegs s.m [0xFE0000] ∧ t.m.log = s.m.log) ∧
        ∀ n, n ≠ 0 → Gives (.knownAnswerTestsDone d n) s (fun t => (t.m.side d).core.error = true ∧ (t.m.side d).step = 2 ∧
          t.m.get d 0xFE0000 29 3 = 2 ∧ t.m.get d 0xFE0000 8 8 = n % 256 ∧ (t.m.side d).evt.pend.getLsbD 120 = true ∧
          ∃ e ∈ t.m.log, e.unit = 0x0F ∧ e.side = d ∧ e.code = 0x0701 ∧ e.severity = 3)) ∧
      (3 ≤ (s.m.side d).step → s.m.mgt d 23 = false → s.m.mgt d 21 = false → (s.m.side d).core.error = false →
        Gives (.fwBankVerified d true) s (fun t => t.m.mgt d 23 = true ∧ t.m.get d mgtStat 22 1 =
            (if (s.m.side d).bankTry = 0 then (s.m.side d).boot.preferred else 1 - (s.m.side d).boot.preferred) ∧
          (t.m.side d).step = max (s.m.side d).step 5) ∧
        Gives (.fwBankVerified d false) s (fun t => (t.m.side d).evt.pend.getLsbD 127 = true ∧ t.m.mgt d 23 = false ∧
          ((s.m.side d).bankTry = 0 → (t.m.side d).bankTry = 1 ∧ t.m.mgt d 21 = false) ∧
          ((s.m.side d).bankTry ≠ 0 → t.m.mgt d 21 = true) ∧ t.m.Logged s.m 0x0F noInst 0x0703 2)) ∧
      (3 ≤ (s.m.side d).step → s.m.mgt d 23 = true → Gives (.dramTrained d) s (fun t => t.m.OnlyRegs s.m [] ∧
        (t.m.side d).step = max (s.m.side d).step 6 ∧ t.m.log = s.m.log)) ∧
      (6 ≤ (s.m.side d).step → s.m.mgt d 24 = false → Gives (.appReady d) s (fun t => t.m.mgt d 24 = true ∧
        (t.m.side d).step = max (s.m.side d).step 8 ∧ t.m.OnlyRegs s.m [mgtStat])) ∧
      ((s.m.side d).step = 8 → Gives (.reducedService d) s (fun t => t.m.mgt d 25 = true ∧ t.m.mgt d 30 = true ∧
        (t.m.side d).step = 9 ∧ (t.m.side d).alive = true ∧ (t.m.side d).evt.pend.getLsbD 1 = true ∧
        (s.m.token = d → t.m.inService d = true)))) ∧
    ((s.m.side d).st ≠ .down →
      (3 ≤ (s.m.side d).step → Gives (.endpointReady d) s (fun t => (t.m.side d).endpoint = true ∧
        (t.m.side d).step = max (s.m.side d).step 4 ∧ t.m.OnlyRegs s.m [] ∧ t.m.log = s.m.log)) ∧
      (∀ i, 6 ≤ (s.m.side d).step → i < slicesOf s.m.part → s.m.mgt d i = false → Gives (.sliceInitialised d i) s (fun t =>
        t.m.mgt d i = true ∧ (∀ a, (t.img.side d).get a = if a / 2 ^ 30 = i then 0 else (s.img.side d).get a) ∧
        t.img.side d.other = s.img.side d.other ∧
        ((∀ k, k < slicesOf s.m.part → k ≠ i → s.m.mgt d k = true) → (∀ k, slicesOf s.m.part ≤ k → k < 16 → s.m.mgt d k = false) →
          t.m.mgt d 26 = true))) ∧
      (9 ≤ (s.m.side d).step → Gives (.pxcReady d) s (fun t => t.m.mgt d 28 = true ∧ t.m.OnlyRegs s.m [mgtStat] ∧
        t.m.log = s.m.log)) ∧
      (9 ≤ (s.m.side d).step → s.m.mgt d 31 = false → (∀ k, 26 ≤ k → k ≤ 28 → s.m.mgt d k = true) →
        Gives (.engineReady d) s (fun t => t.m.mgt d 31 = true ∧ t.m.mgt d 30 = false ∧ (t.m.side d).evt.pend.getLsbD 0 = true ∧
          t.m.Logged s.m 0x00 noInst 0x0102 0)))
/-- Where the ring, Ligature and DMA events complete. Each of these events, on states that allow it, takes a next state with its own
effect. RING_ENABLE and RING_DISABLE of a side whose BAR4 acts set and clear ENABLE; MESSAGE_FETCH of a sound new message moves HEAD past
it; FETCH_ERROR sets its bit of RING_STAT; FORWARDED_MESSAGE orders its command. LIGATURE_TRAINED and LIGATURE_DOWN raise and end the
link, LIG_FRAME drops lanes; SIGNATURE_RECORD that agrees shows its line, SIGNATURE_TIMEOUT ends the match, STATION_CHECKPOINT notes its
page, JOIN_UNIT_COPIED goes to step 2, FAULT_CLASS_DRAIN takes a count. DMA_ENABLE, DMA_DISABLE, WAIT_DONE, PACE_TIMER, MOVE_COMPLETE,
DMA_READ_COMPLETION, DMA_FEED_SPACE, BUS_TIMEOUT and HOST_ERROR act on their channel. -/
def Obligations.RingLinkAndDmaEventsComplete : Prop :=
  ∀ (s : State) d,
    (∀ n, n < 64 → s.m.bar4On d = true →
      (s.m.ringOn d n = false → ∃ t, exec (.ringEnable d n) s = .next t ∧ t.m.ringOn d n = true ∧ t.m.ringHead d n = 0) ∧
      (s.m.ringOn d n = true → ∃ t, exec (.ringDisable d n) s = .next t ∧ t.m.ringOn d n = false) ∧
      (ringToHost n = false → s.m.ringOn d n = true → 0 < s.m.ringHeld d n → ∃ t, exec (.fetchError d ⟨n, false⟩) s = .next t ∧
        bitOf (t.m.rd d (ringPage n + 0x18)) 28 = true ∧ ((t.m.side d).ringAux n).stalled = true) ∧
      (s.m.ringOn d n = true → ∃ t, exec (.fetchError d ⟨n, true⟩) s = .next t ∧ bitOf (t.m.rd d (ringPage n + 0x18)) 27 = true)) ∧
    (∀ n bytes, s.m.mayFetch d n = true → numAt bytes 8 2 ≤ 8176 → numAt bytes 8 2 + 16 ≤ 64 * s.m.ringSize d n →
      ceilDiv (16 + numAt bytes 8 2) 64 ≤ s.m.ringHeld d n → badHeader bytes = none →
      s.m.tagVerdict (numAt bytes 4 2) (msgOf d (.ring n) bytes) = .new → (∀ f ∈ s.m.flights, f.tag ≠ numAt bytes 0 4) →
      (∃ c ∈ cmdTable, c.1 = numAt bytes 4 2) → ∃ t, exec (.messageFetch d n bytes) s = .next t ∧
        t.m.ringHead d n = (s.m.ringHead d n + ceilDiv (16 + numAt bytes 8 2) 64) % 65536 ∧
        t.m.flights.length = s.m.flights.length + 1) ∧
    (∀ n bytes f ys, s.m.mgt d 29 = true → d ≠ s.m.token → s.m.flights = f :: ys → (∀ g ∈ ys, g.tag ≠ f.tag) →
      f.tag = numAt bytes 0 4 → f.side = d → f.via = .ring n → f.begun = false →
      ∃ t, exec (.forwardedMessage d n bytes) s = .next t ∧ t.m.flights = { f with ordered := true } :: ys) ∧
    (∀ lanes keyOk, s.m.part = .w9d → s.m.a.step ≠ 0 → s.m.b.step ≠ 0 → 8 ≤ lanes → lanes ≤ 16 →
      s.m.fwRelease .a (s.m.runs .a) = s.m.fwRelease .b (s.m.runs .b) →
      s.m.fwField .a (s.m.runs .a) 1 = s.m.fwField .b (s.m.runs .b) 1 →
      ∃ t, exec (.ligatureTrained lanes keyOk) s = .next t ∧ t.m.ligUp = true ∧ t.m.lanes = lanes ∧ t.m.ligKey = keyOk) ∧
    (s.m.ligUp = true → ∃ t, exec .ligatureDown s = .next t ∧ t.m.ligUp = false ∧ t.m.lanes = 0) ∧
    (∀ lanes, s.m.ligUp = true → 8 ≤ lanes → lanes < s.m.lanes → ∃ t, exec (.ligFrame true lanes) s = .next t ∧ t.m.lanes = lanes) ∧
    (∀ st line own, st < 6 → s.m.compares st = true → s.tick.signature st line = some own →
      ∃ t, exec (.signatureRecord st line (BitVec.ofInt 32 line) own false false) s = .next t ∧ t.m.rdA (ligStn st + 4) = BitVec.ofInt 32 line) ∧
    (∀ st line, st < 6 → s.m.compares st = true → s.m.matched st = true → ∃ t, exec (.signatureTimeout st line) s = .next t ∧
      t.m.matched st = false ∧ t.m.rdA (ligStn st + 8) = BitVec.ofInt 32 line) ∧
    (∀ st, s.m.shadowed = true → s.m.inJob st = true → ∃ t, exec (.stationCheckpoint st true) s = .next t ∧
      t.m.redund.ckptPage = (s.m.decOf st).savedPage) ∧
    ((s.m.side s.m.token.other).st = .joining → s.m.getA 0xFC001C 28 4 = 1 → ∃ t, exec .joinUnitCopied s = .next t ∧
      t.m.getA 0xFC001C 28 4 = 2) ∧
    (∀ cls side inst, s.m.lasting cls side inst = false → 0 < (s.m.faultInst cls side inst).count →
      ∃ t, exec (.faultClassDrain cls side inst) s = .next t ∧
        (t.m.faultInst cls side inst).count + 1 = (s.m.faultInst cls side inst).count) ∧
    (∀ ch, ch < 32 → s.m.fitted d = true →
      (∀ b, ∃ t, exec (.dmaEnable d ch b) s = .next t ∧ bitOf (t.m.rd d (dmaBase ch)) 31 = b) ∧
      (((s.m.side d).dmaOf ch).move = none → ∃ t, exec (.dmaDisable d ch) s = .next t ∧ bitOf (t.m.rd d (dmaBase ch)) 31 = false) ∧
      (((s.m.side d).dmaOf ch).state = .waiting → ((s.m.side d).dmaOf ch).need ≤ ((s.m.side d).dmaOf ch).tokens →
        ∃ t, exec (.dmaWaitDone d ch) s = .next t ∧ ((t.m.side d).dmaOf ch).state = .running) ∧
      (s.m.get d (dmaBase ch + 8) 16 16 ≠ 0 → ((s.m.side d).dmaOf ch).tokens < 65535 →
        ∃ t, exec (.dmaPaceTimer d ch) s = .next t ∧ ((t.m.side d).dmaOf ch).tokens = ((s.m.side d).dmaOf ch).tokens + 1) ∧
      (∀ mv, ((s.m.side d).dmaOf ch).move = some mv →
        (mv.length ≤ ((s.m.side d).dmaOf ch).bytes → ∃ t, exec (.dmaMoveComplete d ch) s = .next t ∧
          ((t.m.side d).dmaOf ch).move = none ∧ ((t.m.side d).dmaOf ch).pc = (((s.m.side d).dmaOf ch).pc + 32) % 2 ^ 64) ∧
        (∀ data, mv.srcImage = false → mv.dstSpace = 0 → mv.pending = [] → mv.asked = mv.length → mv.bad = none →
          ((s.m.side d).dmaOf ch).state = .running → ((s.m.side d).dmaOf ch).bytes = 0 → data.length = mv.length → 0 < mv.length →
          mv.dst % 64 + mv.length ≤ 64 → ∃ t, exec (.dmaReadCompletion d ch data []) s = .next t ∧
            .hostWrite d mv.dst data ∈ t.m.out ∧ ((t.m.side d).dmaOf ch).bytes = mv.length) ∧
        (mv.dstSpace = 2 → mv.bad = none → mv.asked = mv.length → ((s.m.side d).dmaOf ch).state = .blocked →
          mv.pending.length = mv.length - ((s.m.side d).dmaOf ch).bytes → 0 < mv.pending.length →
          ((s.m.side d).dmaOf ch).bytes % 64 + mv.pending.length ≤ 64 →
          (tabGet [] (s.m.side d).feeds mv.dst).length + mv.pending.length ≤ 262144 →
          ∃ t, exec (.dmaFeedSpace d ch) s = .next t ∧ ((t.m.side d).dmaOf ch).state = .running ∧
            ((t.m.side d).dmaOf ch).bytes = mv.length)) ∧
      (((s.m.side d).dmaOf ch).hostWait = true → ((s.m.side d).dmaOf ch).state = .running → (s.m.side d).st ≠ .down → ∀ addr,
        (∃ t, exec (.dmaBusTimeout d ch addr) s = .next t ∧ t.m.DmaStopped s.m d ch 3 ((s.m.side d).dmaOf ch).pc) ∧
        ∃ t, exec (.dmaHostError d ch addr) s = .next t ∧ t.m.DmaStopped s.m d ch 4 ((s.m.side d).dmaOf ch).pc))

/-- Where the events of encoders, captures, rejects, stations and loops complete. Each of these events, on states that allow it, takes a
next state with its own effect. ENC_COUNT moves its counter, INDEX_PULSE takes its reference, ENC_LOS declares the fault, LTK_TICK takes
the supply's state; CAPTURE_EDGE latches, CAPTURE_FILTER_END settles what is latched, CAP_POP discards the oldest entry; REJECT_PULSE_END
ends a pulse, REJECT_OVERLOAD switches the output off, REJECT_RETRY lets it work again; DEFERRED_COMMAND_RUN runs an HV_SET; SOS_VALID
shows that its station was seen, SOS_MISSED counts, EOS ends the sweep, LED_PLANE_LATCH takes the next plane, BEAM_FAULT declares its beam
failed; LOOP_SAMPLE of a loop with a constant model in force takes its PID step, DENSITY_READ joins the windows of its station,
LOOP_STATE_SYNC leaves both sides as they are, level already. -/
def Obligations.StationAndLineEventsComplete : Prop :=
  ∀ (s : State),
    (s.m.tracking = true → s.m.lineIdle → ∀ ch, ch < 4 →
      (∀ a b h, edgeStep (s.m.getA (encBase ch) 0 2) a b h ≠ 0 → ∃ t, exec (.encCount ch a b h) s = .next t ∧
        (t.m.encOf ch).count ≠ (s.m.encOf ch).count) ∧
      (s.m.bitA (encBase ch) 13 = true → s.m.rdA (encBase ch + 8) ≠ 0 → (s.m.encOf ch).forward = true →
        s.m.bitA (encBase ch + 0x24) 23 = false → ∃ t, exec (.indexPulse ch) s = .next t ∧ t.m.bitA (encBase ch + 0x24) 23 = true) ∧
      (s.m.getA (encBase ch) 0 2 = 1 ∨ s.m.getA (encBase ch) 0 2 = 2 ∨ s.m.bitA (encBase ch) 13 = true →
        s.m.bitA (encBase ch + 0x24) 29 = false → ∃ t, exec (.encLos ch) s = .next t ∧ t.m.bitA (encBase ch + 0x24) 29 = true) ∧
      ((∀ n, (s.m.encOf n).subPend = false) → ∀ speeds ipos io24, ∃ t, exec (.ltkTick speeds ⟨ipos, io24⟩) s = .next t ∧
        t.m.io24 = io24)) ∧
    (s.m.tracking = true → ∀ k d, k < 16 → s.m.inService d = true →
      (∀ rising, s.m.io24 = true → ∃ t, exec (.captureEdge k rising) s = .next t ∧ (t.m.capOf d k).pend.isSome = true) ∧
      (∀ held, ∃ t, exec (.captureFilterEnd k held) s = .next t ∧ (t.m.capOf d k).pend = none)) ∧
    (∀ d k, s.m.inService d = true → k < 16 → ∃ t, exec (.capPop d k) s = .next t ∧
      (t.m.capOf d k).fifo = (s.m.capOf d k).fifo.tail) ∧
    (∀ j, j < 8 →
      (0 < (s.m.rejOf j).running → ∃ t, exec (.rejectPulseEnd j) s = .next t ∧
        (t.m.rejOf j).running + 1 = (s.m.rejOf j).running) ∧
      (s.m.bitA (0xD0300C + 0x20 * j) 31 = true → ∃ t, exec (.rejectOverload j) s = .next t ∧ (t.m.rejOf j).overload = true ∧
        t.m.bitA (0xD0300C + 0x20 * j) 31 = false) ∧
      ((s.m.rejOf j).overload = true → ∃ t, exec (.rejectRetry j) s = .next t ∧ (t.m.rejOf j).overload = false)) ∧
    (∀ w rest, s.m.deferred = w :: rest → s.tick.mayStart w = true → w.opcode = 0x0803 →
      ∃ t, exec .deferredCommandRun s = .next t ∧ t.m.deferred = rest) ∧
    (s.m.tracking = true → ∀ st, st < 6 → s.m.inJob st = true → s.m.isLaser st = true → s.m.pages = [] →
      (∀ q ipos, (s.m.stnOf st).sweepOpen = false → s.m.facetIdOn st = false → (s.m.stnOf st).seen = false →
        s.m.facetUsed st 0 = false → s.m.sync st = 3 → ∃ t, exec (.sosValid st q ipos) s = .next t ∧
          (t.m.stnOf st).seen = true ∧ t.m.sync st = 2) ∧
      ((s.m.stnOf st).seen = true → (s.m.stnOf st).sweepOpen = false → s.m.sync st = 2 → ∃ t, exec (.sosMissed st) s = .next t ∧
        (t.m.stnOf st).missedRun = (s.m.stnOf st).missedRun + 1) ∧
      (∀ v : Int, (s.m.stnOf st).sweepOpen = true → v.natAbs ≤ max 1 (s.m.getA (pxcBase st + 0x10) 16 8) →
        ∃ t, exec (.eos st (some v)) s = .next t ∧ (t.m.stnOf st).sweepOpen = false)) ∧
    (∀ st line key y at_, st < 6 → s.m.inJob st = true → (s.m.stnOf st).ledLine = some line →
      s.m.ledNext st = some (key, y, at_) → (s.m.stnOf st).ledPlane + 2 < setPlanes (s.m.stnOf st).set →
      ∃ t, exec (.ledPlaneLatch st ((s.m.stnOf st).ledPlane + 1)) s = .next t ∧
        (t.m.stnOf st).ledPlane = (s.m.stnOf st).ledPlane + 1) ∧
    (∀ st beam, s.m.inService s.m.token = true → st < stationsOf s.m.part → beam < 32 → s.m.beamEnabled st beam = true →
      s.m.bitA (scbBase st + 0x14) beam = false → s.m.awaits = [] → s.m.getA (beamBase st beam) 28 3 = 1 →
      ∃ t, exec (.beamFault st beam .openCircuit) s = .next t ∧ t.m.bitA (scbBase st + 0x14) beam = true) ∧
    (∀ n y v, n < 256 → loopFitted s.m.part n = true → loopTrig (s.m.loopOf n).desc = 1 →
      (s.m.getA 0x20004 19 3 < 2 ∨ (54 ≤ n ∧ n < 58)) → s.m.loopApplies n = true → (s.m.loopOf n).st = 1 → s.m.cal.ramps = [] →
      s.m.bitA calStat 27 = false → (∀ k, k < 256 → loopTrig (s.m.loopOf k).desc = 4 → loopArg (s.m.loopOf k).desc ≠ n) →
      (70 ≤ n → loopOut (s.m.loopOf n).desc % 256 ≠ n) → (s.m.loopInput n = some v ∨ (s.m.loopInput n = none ∧ y = some v)) →
      numAt (s.m.loopOf n).desc 13 1 = 0 → ∃ t, exec (.loopSample n y false) s = .next t ∧
        (t.m.loopOf n).u = (pidSample { s.m.loopOf n with inner := (s.m.loopOf n).inner + 1 } (s.m.loopTime n) v (s.m.loopSp n)
          (s.m.loopHeld n)).u) ∧
    (∀ station v, station < stationsOf s.m.part → v ≠ 0xFFFF →
      (∀ w ∈ s.m.drv.dens, s.m.encPos (((tabFind s.m.jobs s.m.armed).map Job.encoder).getD 0) ≤ w.hi) →
      ∃ t, exec (.densityRead station (some v)) s = .next t ∧
        t.m.drv.dens = s.m.drv.dens.map (fun w =>
          if w.station = station ∧ w.lo ≤ s.m.encPos (((tabFind s.m.jobs s.m.armed).map Job.encoder).getD 0) ∧
            s.m.encPos (((tabFind s.m.jobs s.m.armed).map Job.encoder).getD 0) ≤ w.hi
          then { w with sum := w.sum + v, count := w.count + 1 } else w)) ∧
    (∃ t, exec .loopStateSync s = .next t ∧ t.m = s.tick)
/-- A step runs the command at the front of the queue. For every command c and state s with c at the front of its queue, a step of s is
exec of c on s with the queue's rest. On an empty queue the block idles: the step answers the state as it is. -/
def Obligations.FrontCommandRuns : Prop :=
  (∀ (s : State) c rest, s.pending = c :: rest → step s = exec c { s with pending := rest }) ∧
  (∀ s : State, s.pending = [] → step s = .next s)

/-- What the state holds right after reset. For every part, right after reset every register holds its reset value, of which a few that
the spec gives are named; side A holds the token, no side is up, the engine is CONFIGURED with no job, no event is pending and every event
is masked, no command waits, and image memory reads 0 everywhere. State.reset is the W9-D. That image memory which nothing has written
reads 0 (log entry 2) and that State.reset is a W9-D (log entry 1) are the model's choices. -/
def Obligations.ResetState : Prop :=
  State.reset = State.resetFor .w9d ∧
  ∀ p d, (∀ off, (State.resetFor p).m.rd d off = resetOf off) ∧ (State.resetFor p).m.part = p ∧ (State.resetFor p).m.token = .a ∧
    ((State.resetFor p).m.side d).st = .down ∧ (State.resetFor p).m.eng = .configured ∧ (State.resetFor p).m.armed = 0 ∧
    (State.resetFor p).m.jobs = [] ∧ ((State.resetFor p).m.side d).evt.pend = 0 ∧
    (∀ n, n < 128 → ((State.resetFor p).m.side d).evt.mask.getLsbD n = true) ∧ (State.resetFor p).pending = [] ∧
    (∀ a, ((State.resetFor p).img.side d).get a = 0) ∧
    (∀ n, n < 8 → resetOf (bar4 + 0x1000 * n + 8) = 0x00000007 ∧ resetOf (bar4 + 0x1000 * (8 + n) + 8) = 0x00000047 ∧
      resetOf (bar4 + 0x1000 * (48 + n) + 8) = 0x000000CA) ∧
    resetOf (bar4 + 0x1000 * 60 + 8) = 0x00000006 ∧ resetOf (bar4 + 0x1000 * 61 + 8) = 0x00000046

/-- Image memory is in canonical form after reset. For every part, and so for State.reset, the image memories of the state after reset are
in canonical form: addresses rise strictly and no listed byte is 0. -/
def Obligations.ResetMemoryCanonical : Prop := State.reset.memOk = true ∧ ∀ p, (State.resetFor p).memOk = true

/-- Every step keeps image memory in canonical form. Whatever command is at the front of the queue, and from every state whose image
memories are in canonical form, a step that takes a next state takes one whose image memories are in canonical form, so that equal
memories are equal data. -/
def Obligations.StepKeepsMemoryCanonical : Prop := ∀ s t : State, s.memOk = true → step s = .next t → t.memOk = true

/-- One side holds the token, and on single-sided parts side A holds it from reset and it never moves. In every state exactly one side
holds the token and the other is the standby side. On a part that is not a W9-D side A holds it after reset, and from every state of such
a part in which side A holds it every step leaves it there, and leaves the part what it is. -/
def Obligations.SingleSidedTokenStays : Prop :=
  (∀ s : State, ∃ d, s.m.token = d ∧ ∀ e, e ≠ d → e = d.other) ∧
  (∀ p, p ≠ .w9d → (State.resetFor p).m.token = .a ∧ (State.resetFor p).m.part = p) ∧
  (∀ s t : State, s.m.part ≠ .w9d → s.m.token = .a → step s = .next t → t.m.part = s.m.part ∧ t.m.token = .a)

/-- Every command completes, but for a register access beyond its window. Every command takes a next state in every state, in which the
queue and the part are what they were; the one exception is a REGISTER_WRITE that goes beyond the window of its BAR, which the spec does
not give the machine and which stops by name. -/
def Obligations.EveryCommandCompletes : Prop :=
  ∀ (c : Instr) (s : State),
    (Gives c s (fun t => t.pending = s.pending ∧ t.m.part = s.m.part) ∧
      ∀ d bar off words, c = .registerWrite d bar off words → off + 4 * words.length ≤ barSize bar) ∨
    (∃ d bar off words, c = .registerWrite d bar off words ∧ barSize bar < off + 4 * words.length ∧ exec c s = .fault .outsideBar)

/-- Which commands may move the token and which may touch image memory. A command outside the list of those that restart a side or the
module, wake it from HIBERNATE or move the token leaves the token where it is. A command outside the list of those that read or write
image memory on their own leaves both image memories, their contents and their latent errors, as they were. -/
def Obligations.TokenAndImageFrames : Prop :=
  ∀ (c : Instr) (s t : State), exec c s = .next t →
    (movesToken c = false → t.m.token = s.m.token) ∧ (touchesImage c = false → t.img = s.img)

/-- What the tag and the form of a command decide before any other check. For each of the 87 commands: a malformed one is answered
ST_MALFORMED; of the others, tag 0 is answered ST_BAD_TAG, a tag whose recorded command was the same gets the recorded response with
REPLAY set, a recorded tag of another command ST_TAG_REUSED, and a tag of a command under way ST_IN_PROGRESS. Each is the whole effect:
nothing but the tag store's and the rings' own state differs, no register of BAR0 changes, nothing is logged, and image memory and the
queue stay. -/
def Obligations.TagAndFormDecide : Prop :=
  ∀ (i : Instr) (c : CmdDef) (msg : Msg) (s : State), mailRow i = some (c, msg) →
    (∀ off, malformedAt c msg = some off → exec i s =
      .next { s with m := s.tick.respond c.opcode msg (s.m.resultSide c msg) 0 stMalformed off [] }) ∧
    (malformedAt c msg = none →
      (msg.tag = 0 → exec i s = .next { s with m := s.tick.respond c.opcode msg (s.m.resultSide c msg) 0 stBadTag 0 [] }) ∧
      (msg.tag ≠ 0 →
        (∀ r, s.m.tags.find? (fun r => r.tag == msg.tag) = some r →
          (r.digest = msgDigest c.opcode msg → exec i s = .next { s with m := s.tick.deliver msg.side msg.via none (markReplay r.resp) }) ∧
          (r.digest ≠ msgDigest c.opcode msg →
            exec i s = .next { s with m := s.tick.respond c.opcode msg (s.m.resultSide c msg) 0 stTagReused 0 [] })) ∧
        (∀ f, s.m.tags.find? (fun r => r.tag == msg.tag) = none → s.m.flights.find? (fun f => f.tag == msg.tag) = some f →
          f.begun = true ∨ f.digest ≠ msgDigest c.opcode msg →
          exec i s = .next { s with m := s.tick.respond c.opcode msg (s.m.resultSide c msg) 0 stInProgress 0 [] }))) ∧
    (malformedAt c msg ≠ none ∨ s.m.tagVerdict c.opcode msg ≠ .new →
      Gives i s (fun t => t.m.AsIf s.tick ∧ t.m.tags = s.m.tags ∧ t.m.flights = s.m.flights ∧ t.img = s.img ∧ t.pending = s.pending))

/-- A malformed message is answered with ST_MALFORMED and has no effect. A message that the mailbox engine may take, whose entries all lie
before RING_TAIL, and that sets a FLAGS bit other than 0 or 1, has AFFINITY above 2, a STATUS or DETAIL other than 0, or a LENGTH other
than the one its command's table fixes, is taken off its ring and answered ST_MALFORMED with its tag on the response ring. It has no
effect beyond the ring's turn being used: nothing is stored under its tag, no command is in flight for it, no register of BAR0 changes and
image memory stays. -/
def Obligations.MalformedMessageHasNoEffect : Prop :=
  ∀ (s : State) d n bytes, s.m.mayFetch d n = true → numAt bytes 8 2 ≤ 8176 → numAt bytes 8 2 + 16 ≤ 64 * s.m.ringSize d n →
    ceilDiv (16 + numAt bytes 8 2) 64 ≤ s.m.ringHeld d n →
    4 ≤ numAt bytes 6 1 ∨ 2 < numAt bytes 7 1 ∨ numAt bytes 10 2 ≠ 0 ∨ numAt bytes 12 4 ≠ 0 ∨
      (∃ op len, cmdTable.find? (fun c => c.1 == numAt bytes 4 2) = some (op, len, len) ∧ numAt bytes 8 2 ≠ len) →
    Gives (.messageFetch d n bytes) s (fun t =>
      t.m.ringHead d n = (s.m.ringHead d n + ceilDiv (16 + numAt bytes 8 2) 64) % 65536 ∧
      (∃ off, .ringEntry d (respRing n) (s.m.ringAddr d (respRing n) (s.m.ringTail d (respRing n)))
        (respBytes (numAt bytes 4 2) (msgOf d (.ring n) bytes) s.m.token 0 stMalformed off []) ∈ t.m.out) ∧
      t.m.AsIf (s.tick.served d n) ∧ t.m.tags = s.m.tags ∧ t.m.flights = s.m.flights ∧ t.img = s.img)

/-- A command under VALIDATE changes nothing. A command that comes with VALIDATE, whatever its payload and the state, takes a next state
that differs only in the tag store, the commands in flight, ring indices, events of its answer and what left the module: nothing acts,
waits or is deferred, no register of BAR0 changes, nothing is logged, and image memory stays. PLANE_DEFINE and JOB_ARM are stated
elsewhere, since their checks read image memory. -/
def Obligations.ValidateChangesNothing : Prop :=
  ∀ (i : Instr) (c : CmdDef) (msg : Msg) (s : State), mailRow i = some (c, msg) → isValidate msg = true →
    (∀ m', i ≠ .planeDefine m' ∧ i ≠ .jobArm m') →
    Gives i s (fun t => t.m.AsIf s.tick ∧ t.img = s.img ∧ t.pending = s.pending)

/-- Which doorbells are ignored and which move the index. While the module is awake, on each ring of a side whose BAR4 acts, a doorbell,
as RING_DB or as a register write, that comes while ENABLE is 0, that would make the ring hold more than N entries, that would move the
host's index backwards or, on a module-to-host ring, past the module's, sets BAD_DOORBELL, raises event 52 and moves no index; every other
doorbell moves the host-owned index to its INDEX. Of two doorbells one after the other, the last valid one counts. While the module
sleeps, a doorbell moves no index and is held until it is awake. -/
def Obligations.DoorbellsDecided : Prop :=
  ∀ (s : State) d n w c, n < 64 → s.m.bar4On d = true →
    c = .ringDb d n w ∨ c = .registerWrite d .bar4 (0x1000 * n + 0x40) [(15, BitVec.ofNat 32 w)] →
    (s.m.sleepState ≠ 0 → Gives c s (fun t => t.m.ringHead d n = s.m.ringHead d n ∧ t.m.ringTail d n = s.m.ringTail d n ∧
      (∃ i, i % 65536 = w % 65536 ∧ .doorbell d n i ∈ t.m.sleep.latch) ∧ t.m.OnlyRegs s.m [0x20024] ∧ t.img = s.img)) ∧
    (s.m.sleepState = 0 → (s.m.ringOn d n = false ∨
      (ringToHost n = false ∧ (s.m.ringSize d n < (w % 65536 + 65536 - s.m.ringHead d n) % 65536 ∨
        (w % 65536 + 65536 - s.m.ringHead d n) % 65536 < s.m.ringHeld d n)) ∨
      (ringToHost n = true ∧ (s.m.ringSize d n < (s.m.ringTail d n + 65536 - w % 65536) % 65536 ∨
        s.m.ringHeld d n < (s.m.ringTail d n + 65536 - w % 65536) % 65536))) →
      Gives c s (fun t =>
        t.m.ringHead d n = s.m.ringHead d n ∧ t.m.ringTail d n = s.m.ringTail d n ∧ bitOf (t.m.rd d (ringPage n + 0x18)) 29 = true ∧
        (t.m.side d).evt.pend.getLsbD 52 = true ∧ t.m.OnlyRegs s.m [] ∧ t.img = s.img)) ∧
    (s.m.sleepState = 0 → s.m.ringOn d n = true →
      (ringToHost n = false → (w % 65536 + 65536 - s.m.ringHead d n) % 65536 ≤ s.m.ringSize d n →
        s.m.ringHeld d n ≤ (w % 65536 + 65536 - s.m.ringHead d n) % 65536 →
        Gives c s (fun t =>
          t.m.ringTail d n = w % 65536 ∧ t.m.ringHead d n = s.m.ringHead d n ∧
          bitOf (t.m.rd d (ringPage n + 0x18)) 29 = bitOf (s.m.rd d (ringPage n + 0x18)) 29 ∧
          (t.m.side d).evt = (s.m.side d).evt ∧ t.img = s.img ∧
          ∀ v, Gives (.registerWrite d .bar4 (0x1000 * n + 0x40) [(15, BitVec.ofNat 32 v)]) t (fun u => u.m.ringTail d n =
            if (v % 65536 + 65536 - s.m.ringHead d n) % 65536 ≤ s.m.ringSize d n ∧
                (w % 65536 + 65536 - s.m.ringHead d n) % 65536 ≤ (v % 65536 + 65536 - s.m.ringHead d n) % 65536
              then v % 65536 else w % 65536))) ∧
      (ringToHost n = true → (s.m.ringTail d n + 65536 - w % 65536) % 65536 ≤ s.m.ringSize d n →
        (s.m.ringTail d n + 65536 - w % 65536) % 65536 ≤ s.m.ringHeld d n →
        Gives c s (fun t =>
          t.m.ringHead d n = w % 65536 ∧ t.img = s.img ∧ (isRecordRing n = false → t.m.ringTail d n = s.m.ringTail d n ∧
            (t.m.side d).evt = (s.m.side d).evt ∧
            ∀ v, Gives (.registerWrite d .bar4 (0x1000 * n + 0x40) [(15, BitVec.ofNat 32 v)]) t (fun u => u.m.ringHead d n =
              if (s.m.ringTail d n + 65536 - v % 65536) % 65536 ≤ s.m.ringSize d n ∧
                  (s.m.ringTail d n + 65536 - v % 65536) % 65536 ≤ (s.m.ringTail d n + 65536 - w % 65536) % 65536
                then v % 65536 else w % 65536)))))

/-- A stopped DMA channel fetches no job until RESUME. A DMA_JOB_FETCH of a channel stopped with FAULT does nothing, whatever the entry.
RESUME clears CAUSE and FAULT and leaves the channel idle with its ring's indices as they were, so that the failed job is not tried again;
the next DMA_JOB_FETCH then takes the next entry of its ring. -/
def Obligations.ResumeLetsChannelGoOn : Prop :=
  ∀ (s : State) d ch, ch < 32 → s.m.fitted d = true → ((s.m.side d).dmaOf ch).state = .stopped →
    (∀ entry, Gives (.dmaJobFetch d ch entry) s (fun t => t.m = s.tick ∧ t.img = s.img)) ∧
    Gives (.dmaResume d ch) s (fun t => ((t.m.side d).dmaOf ch).state = .idle ∧ ((t.m.side d).dmaOf ch).cause = 0 ∧
      ((t.m.side d).dmaOf ch).fault = false ∧ t.m.ringHead d (16 + ch) = s.m.ringHead d (16 + ch) ∧
      t.m.ringTail d (16 + ch) = s.m.ringTail d (16 + ch) ∧ t.img = s.img ∧
      ∀ entry, bitOf (s.m.rd d (dmaBase ch)) 31 = true → s.m.ringOn d (16 + ch) = true → 0 < s.m.ringHeld d (16 + ch) →
        ((s.m.side d).ringAux (16 + ch)).stalled = false → jobEntryOk entry = true → Gives (.dmaJobFetch d ch entry) t (fun u =>
          u.m.ringHead d (16 + ch) = (s.m.ringHead d (16 + ch) + 1) % 65536 ∧ ((u.m.side d).dmaOf ch).state = .running ∧
          ((u.m.side d).dmaOf ch).pc = numAt entry 8 8 ∧ ((u.m.side d).dmaOf ch).jobTag = numAt entry 0 4))

/-- What SYS_CANCEL does to the command of its tag. A new SYS_CANCEL on a command ring, without VALIDATE and without a side named, in
every engine state: the deferred command of its tag that has not started is dropped and answered ST_CANCELLED with DETAIL 0, and
SYS_CANCEL is answered ST_OK; for one that has started it is answered ST_IN_PROGRESS, which is not stored, and the command goes on; where
its tag names no deferred command it is answered ST_NOT_FOUND and nothing else changes. -/
def Obligations.CancelDecided : Prop :=
  ∀ (s : State) (msg : Msg) n, msg.via = .ring n → n ≠ 60 → msg.affinity = 0 → msg.payload.length = 4 → msg.flags < 2 →
    s.m.tagVerdict 0x0104 msg = .new →
    (∀ w, s.m.deferred.find? (fun w => w.msg.tag == numAt msg.payload 0 4) = some w → Gives (.sysCancel msg) s (fun t =>
      t.m.answers 0x0104 msg s.m.token stOk 0 [] ∧
      ⟨w.msg.tag, msgDigest w.opcode w.msg, respBytes w.opcode w.msg s.m.token 0x40 stCancelled 0 []⟩ ∈ t.m.tags ∧
      t.m.deferred = s.m.deferred.filter (fun v => v.msg.tag != numAt msg.payload 0 4) ∧ t.m.awaits = s.m.awaits ∧ t.img = s.img)) ∧
    (s.m.deferred.find? (fun w => w.msg.tag == numAt msg.payload 0 4) = none →
      ((∃ w ∈ s.m.awaits, w.deferred = true ∧ w.msg.tag = numAt msg.payload 0 4) → Gives (.sysCancel msg) s (fun t =>
        t.m = (s.tick.begin_ 0x0104 msg).refuse 0x0104 msg s.m.token stInProgress 0 ∧ t.m.AsIf s.tick ∧
        t.m.tags = s.m.tags ∧ (∀ f ∈ t.m.flights, f.tag ≠ msg.tag) ∧ t.img = s.img)) ∧
      ((∀ w ∈ s.m.awaits, w.deferred = true → w.msg.tag ≠ numAt msg.payload 0 4) → Gives (.sysCancel msg) s (fun t =>
        t.m.answers 0x0104 msg s.m.token stNotFound (numAt msg.payload 0 4) [] ∧ t.m.AsIf s.tick ∧ t.img = s.img)))

/-- A new identifier names nothing that is there. Whatever the table of objects, so long as it holds fewer than 0xFFFFFFFE of them, the
identifier given to a new object is between 1 and 0xFFFFFFFE and names no object of the table. Which identifier it is, is an open value. -/
def Obligations.NewIdentifiersNameNothing : Prop :=
  (∀ (m : Mach) (k : Nat) (t : Tab Region), t.length < 0xFFFFFFFE →
    1 ≤ m.newId t k ∧ m.newId t k ≤ 0xFFFFFFFE ∧ tabHas t (m.newId t k) = false) ∧
  (∀ (m : Mach) (k : Nat) (t : Tab Plane), t.length < 0xFFFFFFFE →
    1 ≤ m.newId t k ∧ m.newId t k ≤ 0xFFFFFFFE ∧ tabHas t (m.newId t k) = false) ∧
  (∀ (m : Mach) (k : Nat) (t : Tab TplSet), t.length < 0xFFFFFFFE →
    1 ≤ m.newId t k ∧ m.newId t k ≤ 0xFFFFFFFE ∧ tabHas t (m.newId t k) = false)

/-- What registers read. A register read of a side that is not there or not up, or whose block does not respond, gives 0. CAP_ID and
CAP_UNITS give the part's own values, the register of an absent unit gives 0, LIG gives 0 on a part with one side, and the blocks of
stations 4 and 5 and the registers of laser drive give 0 on a W7-S. -/
def Obligations.RegistersRead : Prop :=
  ∀ (m : Mach) d off,
    (m.bar0On d off = false → m.readReg d .bar0 off = 0) ∧ (m.bar4On d = false → m.readReg d .bar4 off = 0) ∧
    (m.bar0On d 0 = true → m.readReg d .bar0 0 = capId m.part d ∧ m.readReg d .bar0 4 = capUnits m.part) ∧
    (m.part ≠ .w9d → 0xFC0000 ≤ off → off < 0xFD0000 → m.readReg d .bar0 off = 0) ∧
    (m.part = .w7s → (0x640000 ≤ off ∧ off < 0x660000) ∨ (0xC40000 ≤ off ∧ off < 0xC60000) ∨ (0x401400 ≤ off ∧ off < 0x401600) ∨
      (0x500028 ≤ off ∧ off < 0x508000) ∨ laserReg off = true → m.readReg d .bar0 off = 0)
end

