-- ==== Sys2Proof/Laws/State.lean ====
section
/-!
SUPPORT. The fields of the module after the updates through which every command acts: one lemma per field and update, so that no
proof unfolds a record update.
-/

namespace Sys2Proof.Machine

/-! ### Replacing a side -/

@[simp] theorem Mach.side_setSide_self (m : Mach) (d : SideId) (x : Side) : (m.setSide d x).side d = x := by cases d <;> rfl

@[simp] theorem Mach.side_setSide_other (m : Mach) (d : SideId) (x : Side) : (m.setSide d x).side d.other = m.side d.other := by
  cases d <;> rfl

theorem Mach.side_setSide_ne (m : Mach) {d e : SideId} (x : Side) (h : e ≠ d) : (m.setSide d x).side e = m.side e := by
  cases d <;> cases e <;> first | rfl | exact absurd rfl h

@[simp] theorem Mach.side_modSide_self (m : Mach) (d : SideId) (f : Side → Side) : (m.modSide d f).side d = f (m.side d) :=
  Mach.side_setSide_self m d _

theorem Mach.side_modSide_ne (m : Mach) {d e : SideId} (f : Side → Side) (h : e ≠ d) : (m.modSide d f).side e = m.side e :=
  Mach.side_setSide_ne m _ h

@[simp] theorem SideId.other_other (d : SideId) : d.other.other = d := by cases d <;> rfl

theorem SideId.other_ne (d : SideId) : d.other ≠ d := by cases d <;> simp [SideId.other]

@[simp] theorem Mach.setSide_part (m : Mach) (d : SideId) (x : Side) : (m.setSide d x).part = m.part := by cases d <;> rfl
@[simp] theorem Mach.setSide_fresh (m : Mach) (d : SideId) (x : Side) : (m.setSide d x).fresh = m.fresh := by cases d <;> rfl
@[simp] theorem Mach.setSide_rtc (m : Mach) (d : SideId) (x : Side) : (m.setSide d x).rtc = m.rtc := by cases d <;> rfl
@[simp] theorem Mach.setSide_token (m : Mach) (d : SideId) (x : Side) : (m.setSide d x).token = m.token := by cases d <;> rfl
@[simp] theorem Mach.setSide_safe (m : Mach) (d : SideId) (x : Side) : (m.setSide d x).safe = m.safe := by cases d <;> rfl
@[simp] theorem Mach.setSide_moving (m : Mach) (d : SideId) (x : Side) : (m.setSide d x).moving = m.moving := by cases d <;> rfl
@[simp] theorem Mach.setSide_lanes (m : Mach) (d : SideId) (x : Side) : (m.setSide d x).lanes = m.lanes := by cases d <;> rfl
@[simp] theorem Mach.setSide_ligKey (m : Mach) (d : SideId) (x : Side) : (m.setSide d x).ligKey = m.ligKey := by cases d <;> rfl
@[simp] theorem Mach.setSide_ligUp (m : Mach) (d : SideId) (x : Side) : (m.setSide d x).ligUp = m.ligUp := by cases d <;> rfl
@[simp] theorem Mach.setSide_tko (m : Mach) (d : SideId) (x : Side) : (m.setSide d x).tko = m.tko := by cases d <;> rfl
@[simp] theorem Mach.setSide_seqRegs (m : Mach) (d : SideId) (x : Side) : (m.setSide d x).seqRegs = m.seqRegs := by cases d <;> rfl
@[simp] theorem Mach.setSide_power (m : Mach) (d : SideId) (x : Side) : (m.setSide d x).power = m.power := by cases d <;> rfl
@[simp] theorem Mach.setSide_seq (m : Mach) (d : SideId) (x : Side) : (m.setSide d x).seq = m.seq := by cases d <;> rfl
@[simp] theorem Mach.setSide_bus (m : Mach) (d : SideId) (x : Side) : (m.setSide d x).bus = m.bus := by cases d <;> rfl
@[simp] theorem Mach.setSide_ilk (m : Mach) (d : SideId) (x : Side) : (m.setSide d x).ilk = m.ilk := by cases d <;> rfl
@[simp] theorem Mach.setSide_eng (m : Mach) (d : SideId) (x : Side) : (m.setSide d x).eng = m.eng := by cases d <;> rfl
@[simp] theorem Mach.setSide_cause (m : Mach) (d : SideId) (x : Side) : (m.setSide d x).cause = m.cause := by cases d <;> rfl
@[simp] theorem Mach.setSide_armed (m : Mach) (d : SideId) (x : Side) : (m.setSide d x).armed = m.armed := by cases d <;> rfl
@[simp] theorem Mach.setSide_jobs (m : Mach) (d : SideId) (x : Side) : (m.setSide d x).jobs = m.jobs := by cases d <;> rfl
@[simp] theorem Mach.setSide_pages (m : Mach) (d : SideId) (x : Side) : (m.setSide d x).pages = m.pages := by cases d <;> rfl
@[simp] theorem Mach.setSide_nextPage (m : Mach) (d : SideId) (x : Side) : (m.setSide d x).nextPage = m.nextPage := by cases d <;> rfl
@[simp] theorem Mach.setSide_lastComm (m : Mach) (d : SideId) (x : Side) : (m.setSide d x).lastComm = m.lastComm := by cases d <;> rfl
@[simp] theorem Mach.setSide_records (m : Mach) (d : SideId) (x : Side) : (m.setSide d x).records = m.records := by cases d <;> rfl
@[simp] theorem Mach.setSide_counters (m : Mach) (d : SideId) (x : Side) : (m.setSide d x).counters = m.counters := by cases d <;> rfl
@[simp] theorem Mach.setSide_lots (m : Mach) (d : SideId) (x : Side) : (m.setSide d x).lots = m.lots := by cases d <;> rfl
@[simp] theorem Mach.setSide_feed (m : Mach) (d : SideId) (x : Side) : (m.setSide d x).feed = m.feed := by cases d <;> rfl
@[simp] theorem Mach.setSide_regions (m : Mach) (d : SideId) (x : Side) : (m.setSide d x).regions = m.regions := by cases d <;> rfl
@[simp] theorem Mach.setSide_planes (m : Mach) (d : SideId) (x : Side) : (m.setSide d x).planes = m.planes := by cases d <;> rfl
@[simp] theorem Mach.setSide_tpls (m : Mach) (d : SideId) (x : Side) : (m.setSide d x).tpls = m.tpls := by cases d <;> rfl
@[simp] theorem Mach.setSide_glyphs (m : Mach) (d : SideId) (x : Side) : (m.setSide d x).glyphs = m.glyphs := by cases d <;> rfl
@[simp] theorem Mach.setSide_encodes (m : Mach) (d : SideId) (x : Side) : (m.setSide d x).encodes = m.encodes := by cases d <;> rfl
@[simp] theorem Mach.setSide_tags (m : Mach) (d : SideId) (x : Side) : (m.setSide d x).tags = m.tags := by cases d <;> rfl
@[simp] theorem Mach.setSide_flights (m : Mach) (d : SideId) (x : Side) : (m.setSide d x).flights = m.flights := by cases d <;> rfl
@[simp] theorem Mach.setSide_awaits (m : Mach) (d : SideId) (x : Side) : (m.setSide d x).awaits = m.awaits := by cases d <;> rfl
@[simp] theorem Mach.setSide_deferred (m : Mach) (d : SideId) (x : Side) : (m.setSide d x).deferred = m.deferred := by cases d <;> rfl
@[simp] theorem Mach.setSide_logFilter (m : Mach) (d : SideId) (x : Side) : (m.setSide d x).logFilter = m.logFilter := by cases d <;> rfl
@[simp] theorem Mach.setSide_log (m : Mach) (d : SideId) (x : Side) : (m.setSide d x).log = m.log := by cases d <;> rfl
@[simp] theorem Mach.setSide_logSeq (m : Mach) (d : SideId) (x : Side) : (m.setSide d x).logSeq = m.logSeq := by cases d <;> rfl
@[simp] theorem Mach.setSide_faults (m : Mach) (d : SideId) (x : Side) : (m.setSide d x).faults = m.faults := by cases d <;> rfl
@[simp] theorem Mach.setSide_faultCfg (m : Mach) (d : SideId) (x : Side) : (m.setSide d x).faultCfg = m.faultCfg := by cases d <;> rfl
@[simp] theorem Mach.setSide_enc (m : Mach) (d : SideId) (x : Side) : (m.setSide d x).enc = m.enc := by cases d <;> rfl
@[simp] theorem Mach.setSide_caps (m : Mach) (d : SideId) (x : Side) : (m.setSide d x).caps = m.caps := by cases d <;> rfl
@[simp] theorem Mach.setSide_rejs (m : Mach) (d : SideId) (x : Side) : (m.setSide d x).rejs = m.rejs := by cases d <;> rfl
@[simp] theorem Mach.setSide_io24 (m : Mach) (d : SideId) (x : Side) : (m.setSide d x).io24 = m.io24 := by cases d <;> rfl
@[simp] theorem Mach.setSide_stns (m : Mach) (d : SideId) (x : Side) : (m.setSide d x).stns = m.stns := by cases d <;> rfl
@[simp] theorem Mach.setSide_decs (m : Mach) (d : SideId) (x : Side) : (m.setSide d x).decs = m.decs := by cases d <;> rfl
@[simp] theorem Mach.setSide_drv (m : Mach) (d : SideId) (x : Side) : (m.setSide d x).drv = m.drv := by cases d <;> rfl
@[simp] theorem Mach.setSide_cal (m : Mach) (d : SideId) (x : Side) : (m.setSide d x).cal = m.cal := by cases d <;> rfl
@[simp] theorem Mach.setSide_tokens (m : Mach) (d : SideId) (x : Side) : (m.setSide d x).tokens = m.tokens := by cases d <;> rfl
@[simp] theorem Mach.setSide_sec (m : Mach) (d : SideId) (x : Side) : (m.setSide d x).sec = m.sec := by cases d <;> rfl
@[simp] theorem Mach.setSide_shut (m : Mach) (d : SideId) (x : Side) : (m.setSide d x).shut = m.shut := by cases d <;> rfl
@[simp] theorem Mach.setSide_sleep (m : Mach) (d : SideId) (x : Side) : (m.setSide d x).sleep = m.sleep := by cases d <;> rfl
@[simp] theorem Mach.setSide_redund (m : Mach) (d : SideId) (x : Side) : (m.setSide d x).redund = m.redund := by cases d <;> rfl
@[simp] theorem Mach.setSide_diag (m : Mach) (d : SideId) (x : Side) : (m.setSide d x).diag = m.diag := by cases d <;> rfl
@[simp] theorem Mach.setSide_out (m : Mach) (d : SideId) (x : Side) : (m.setSide d x).out = m.out := by cases d <;> rfl

/-! ### Changing a side -/

@[simp] theorem Mach.modSide_part (m : Mach) (d : SideId) (f : Side → Side) : (m.modSide d f).part = m.part := Mach.setSide_part m d _
@[simp] theorem Mach.modSide_fresh (m : Mach) (d : SideId) (f : Side → Side) : (m.modSide d f).fresh = m.fresh := Mach.setSide_fresh m d _
@[simp] theorem Mach.modSide_rtc (m : Mach) (d : SideId) (f : Side → Side) : (m.modSide d f).rtc = m.rtc := Mach.setSide_rtc m d _
@[simp] theorem Mach.modSide_token (m : Mach) (d : SideId) (f : Side → Side) : (m.modSide d f).token = m.token := Mach.setSide_token m d _
@[simp] theorem Mach.modSide_safe (m : Mach) (d : SideId) (f : Side → Side) : (m.modSide d f).safe = m.safe := Mach.setSide_safe m d _
@[simp] theorem Mach.modSide_moving (m : Mach) (d : SideId) (f : Side → Side) : (m.modSide d f).moving = m.moving := Mach.setSide_moving m d _
@[simp] theorem Mach.modSide_lanes (m : Mach) (d : SideId) (f : Side → Side) : (m.modSide d f).lanes = m.lanes := Mach.setSide_lanes m d _
@[simp] theorem Mach.modSide_ligKey (m : Mach) (d : SideId) (f : Side → Side) : (m.modSide d f).ligKey = m.ligKey := Mach.setSide_ligKey m d _
@[simp] theorem Mach.modSide_ligUp (m : Mach) (d : SideId) (f : Side → Side) : (m.modSide d f).ligUp = m.ligUp := Mach.setSide_ligUp m d _
@[simp] theorem Mach.modSide_tko (m : Mach) (d : SideId) (f : Side → Side) : (m.modSide d f).tko = m.tko := Mach.setSide_tko m d _
@[simp] theorem Mach.modSide_seqRegs (m : Mach) (d : SideId) (f : Side → Side) : (m.modSide d f).seqRegs = m.seqRegs := Mach.setSide_seqRegs m d _
@[simp] theorem Mach.modSide_power (m : Mach) (d : SideId) (f : Side → Side) : (m.modSide d f).power = m.power := Mach.setSide_power m d _
@[simp] theorem Mach.modSide_seq (m : Mach) (d : SideId) (f : Side → Side) : (m.modSide d f).seq = m.seq := Mach.setSide_seq m d _
@[simp] theorem Mach.modSide_bus (m : Mach) (d : SideId) (f : Side → Side) : (m.modSide d f).bus = m.bus := Mach.setSide_bus m d _
@[simp] theorem Mach.modSide_ilk (m : Mach) (d : SideId) (f : Side → Side) : (m.modSide d f).ilk = m.ilk := Mach.setSide_ilk m d _
@[simp] theorem Mach.modSide_eng (m : Mach) (d : SideId) (f : Side → Side) : (m.modSide d f).eng = m.eng := Mach.setSide_eng m d _
@[simp] theorem Mach.modSide_cause (m : Mach) (d : SideId) (f : Side → Side) : (m.modSide d f).cause = m.cause := Mach.setSide_cause m d _
@[simp] theorem Mach.modSide_armed (m : Mach) (d : SideId) (f : Side → Side) : (m.modSide d f).armed = m.armed := Mach.setSide_armed m d _
@[simp] theorem Mach.modSide_jobs (m : Mach) (d : SideId) (f : Side → Side) : (m.modSide d f).jobs = m.jobs := Mach.setSide_jobs m d _
@[simp] theorem Mach.modSide_pages (m : Mach) (d : SideId) (f : Side → Side) : (m.modSide d f).pages = m.pages := Mach.setSide_pages m d _
@[simp] theorem Mach.modSide_nextPage (m : Mach) (d : SideId) (f : Side → Side) : (m.modSide d f).nextPage = m.nextPage := Mach.setSide_nextPage m d _
@[simp] theorem Mach.modSide_lastComm (m : Mach) (d : SideId) (f : Side → Side) : (m.modSide d f).lastComm = m.lastComm := Mach.setSide_lastComm m d _
@[simp] theorem Mach.modSide_records (m : Mach) (d : SideId) (f : Side → Side) : (m.modSide d f).records = m.records := Mach.setSide_records m d _
@[simp] theorem Mach.modSide_counters (m : Mach) (d : SideId) (f : Side → Side) : (m.modSide d f).counters = m.counters := Mach.setSide_counters m d _
@[simp] theorem Mach.modSide_lots (m : Mach) (d : SideId) (f : Side → Side) : (m.modSide d f).lots = m.lots := Mach.setSide_lots m d _
@[simp] theorem Mach.modSide_feed (m : Mach) (d : SideId) (f : Side → Side) : (m.modSide d f).feed = m.feed := Mach.setSide_feed m d _
@[simp] theorem Mach.modSide_regions (m : Mach) (d : SideId) (f : Side → Side) : (m.modSide d f).regions = m.regions := Mach.setSide_regions m d _
@[simp] theorem Mach.modSide_planes (m : Mach) (d : SideId) (f : Side → Side) : (m.modSide d f).planes = m.planes := Mach.setSide_planes m d _
@[simp] theorem Mach.modSide_tpls (m : Mach) (d : SideId) (f : Side → Side) : (m.modSide d f).tpls = m.tpls := Mach.setSide_tpls m d _
@[simp] theorem Mach.modSide_glyphs (m : Mach) (d : SideId) (f : Side → Side) : (m.modSide d f).glyphs = m.glyphs := Mach.setSide_glyphs m d _
@[simp] theorem Mach.modSide_encodes (m : Mach) (d : SideId) (f : Side → Side) : (m.modSide d f).encodes = m.encodes := Mach.setSide_encodes m d _
@[simp] theorem Mach.modSide_tags (m : Mach) (d : SideId) (f : Side → Side) : (m.modSide d f).tags = m.tags := Mach.setSide_tags m d _
@[simp] theorem Mach.modSide_flights (m : Mach) (d : SideId) (f : Side → Side) : (m.modSide d f).flights = m.flights := Mach.setSide_flights m d _
@[simp] theorem Mach.modSide_awaits (m : Mach) (d : SideId) (f : Side → Side) : (m.modSide d f).awaits = m.awaits := Mach.setSide_awaits m d _
@[simp] theorem Mach.modSide_deferred (m : Mach) (d : SideId) (f : Side → Side) : (m.modSide d f).deferred = m.deferred := Mach.setSide_deferred m d _
@[simp] theorem Mach.modSide_logFilter (m : Mach) (d : SideId) (f : Side → Side) : (m.modSide d f).logFilter = m.logFilter := Mach.setSide_logFilter m d _
@[simp] theorem Mach.modSide_log (m : Mach) (d : SideId) (f : Side → Side) : (m.modSide d f).log = m.log := Mach.setSide_log m d _
@[simp] theorem Mach.modSide_logSeq (m : Mach) (d : SideId) (f : Side → Side) : (m.modSide d f).logSeq = m.logSeq := Mach.setSide_logSeq m d _
@[simp] theorem Mach.modSide_faults (m : Mach) (d : SideId) (f : Side → Side) : (m.modSide d f).faults = m.faults := Mach.setSide_faults m d _
@[simp] theorem Mach.modSide_faultCfg (m : Mach) (d : SideId) (f : Side → Side) : (m.modSide d f).faultCfg = m.faultCfg := Mach.setSide_faultCfg m d _
@[simp] theorem Mach.modSide_enc (m : Mach) (d : SideId) (f : Side → Side) : (m.modSide d f).enc = m.enc := Mach.setSide_enc m d _
@[simp] theorem Mach.modSide_caps (m : Mach) (d : SideId) (f : Side → Side) : (m.modSide d f).caps = m.caps := Mach.setSide_caps m d _
@[simp] theorem Mach.modSide_rejs (m : Mach) (d : SideId) (f : Side → Side) : (m.modSide d f).rejs = m.rejs := Mach.setSide_rejs m d _
@[simp] theorem Mach.modSide_io24 (m : Mach) (d : SideId) (f : Side → Side) : (m.modSide d f).io24 = m.io24 := Mach.setSide_io24 m d _
@[simp] theorem Mach.modSide_stns (m : Mach) (d : SideId) (f : Side → Side) : (m.modSide d f).stns = m.stns := Mach.setSide_stns m d _
@[simp] theorem Mach.modSide_decs (m : Mach) (d : SideId) (f : Side → Side) : (m.modSide d f).decs = m.decs := Mach.setSide_decs m d _
@[simp] theorem Mach.modSide_drv (m : Mach) (d : SideId) (f : Side → Side) : (m.modSide d f).drv = m.drv := Mach.setSide_drv m d _
@[simp] theorem Mach.modSide_cal (m : Mach) (d : SideId) (f : Side → Side) : (m.modSide d f).cal = m.cal := Mach.setSide_cal m d _
@[simp] theorem Mach.modSide_tokens (m : Mach) (d : SideId) (f : Side → Side) : (m.modSide d f).tokens = m.tokens := Mach.setSide_tokens m d _
@[simp] theorem Mach.modSide_sec (m : Mach) (d : SideId) (f : Side → Side) : (m.modSide d f).sec = m.sec := Mach.setSide_sec m d _
@[simp] theorem Mach.modSide_shut (m : Mach) (d : SideId) (f : Side → Side) : (m.modSide d f).shut = m.shut := Mach.setSide_shut m d _
@[simp] theorem Mach.modSide_sleep (m : Mach) (d : SideId) (f : Side → Side) : (m.modSide d f).sleep = m.sleep := Mach.setSide_sleep m d _
@[simp] theorem Mach.modSide_redund (m : Mach) (d : SideId) (f : Side → Side) : (m.modSide d f).redund = m.redund := Mach.setSide_redund m d _
@[simp] theorem Mach.modSide_diag (m : Mach) (d : SideId) (f : Side → Side) : (m.modSide d f).diag = m.diag := Mach.setSide_diag m d _
@[simp] theorem Mach.modSide_out (m : Mach) (d : SideId) (f : Side → Side) : (m.modSide d f).out = m.out := Mach.setSide_out m d _

/-! ### What leaves the module -/

@[simp] theorem Mach.emit_out (m : Mach) (o : Out) : (m.emit o).out = o :: m.out := rfl
@[simp] theorem Mach.emit_part (m : Mach) (o : Out) : (m.emit o).part = m.part := rfl
@[simp] theorem Mach.emit_fresh (m : Mach) (o : Out) : (m.emit o).fresh = m.fresh := rfl
@[simp] theorem Mach.emit_rtc (m : Mach) (o : Out) : (m.emit o).rtc = m.rtc := rfl
@[simp] theorem Mach.emit_token (m : Mach) (o : Out) : (m.emit o).token = m.token := rfl
@[simp] theorem Mach.emit_safe (m : Mach) (o : Out) : (m.emit o).safe = m.safe := rfl
@[simp] theorem Mach.emit_moving (m : Mach) (o : Out) : (m.emit o).moving = m.moving := rfl
@[simp] theorem Mach.emit_lanes (m : Mach) (o : Out) : (m.emit o).lanes = m.lanes := rfl
@[simp] theorem Mach.emit_ligKey (m : Mach) (o : Out) : (m.emit o).ligKey = m.ligKey := rfl
@[simp] theorem Mach.emit_ligUp (m : Mach) (o : Out) : (m.emit o).ligUp = m.ligUp := rfl
@[simp] theorem Mach.emit_tko (m : Mach) (o : Out) : (m.emit o).tko = m.tko := rfl
@[simp] theorem Mach.emit_a (m : Mach) (o : Out) : (m.emit o).a = m.a := rfl
@[simp] theorem Mach.emit_b (m : Mach) (o : Out) : (m.emit o).b = m.b := rfl
@[simp] theorem Mach.emit_seqRegs (m : Mach) (o : Out) : (m.emit o).seqRegs = m.seqRegs := rfl
@[simp] theorem Mach.emit_power (m : Mach) (o : Out) : (m.emit o).power = m.power := rfl
@[simp] theorem Mach.emit_seq (m : Mach) (o : Out) : (m.emit o).seq = m.seq := rfl
@[simp] theorem Mach.emit_bus (m : Mach) (o : Out) : (m.emit o).bus = m.bus := rfl
@[simp] theorem Mach.emit_ilk (m : Mach) (o : Out) : (m.emit o).ilk = m.ilk := rfl
@[simp] theorem Mach.emit_eng (m : Mach) (o : Out) : (m.emit o).eng = m.eng := rfl
@[simp] theorem Mach.emit_cause (m : Mach) (o : Out) : (m.emit o).cause = m.cause := rfl
@[simp] theorem Mach.emit_armed (m : Mach) (o : Out) : (m.emit o).armed = m.armed := rfl
@[simp] theorem Mach.emit_jobs (m : Mach) (o : Out) : (m.emit o).jobs = m.jobs := rfl
@[simp] theorem Mach.emit_pages (m : Mach) (o : Out) : (m.emit o).pages = m.pages := rfl
@[simp] theorem Mach.emit_nextPage (m : Mach) (o : Out) : (m.emit o).nextPage = m.nextPage := rfl
@[simp] theorem Mach.emit_lastComm (m : Mach) (o : Out) : (m.emit o).lastComm = m.lastComm := rfl
@[simp] theorem Mach.emit_records (m : Mach) (o : Out) : (m.emit o).records = m.records := rfl
@[simp] theorem Mach.emit_counters (m : Mach) (o : Out) : (m.emit o).counters = m.counters := rfl
@[simp] theorem Mach.emit_lots (m : Mach) (o : Out) : (m.emit o).lots = m.lots := rfl
@[simp] theorem Mach.emit_feed (m : Mach) (o : Out) : (m.emit o).feed = m.feed := rfl
@[simp] theorem Mach.emit_regions (m : Mach) (o : Out) : (m.emit o).regions = m.regions := rfl
@[simp] theorem Mach.emit_planes (m : Mach) (o : Out) : (m.emit o).planes = m.planes := rfl
@[simp] theorem Mach.emit_tpls (m : Mach) (o : Out) : (m.emit o).tpls = m.tpls := rfl
@[simp] theorem Mach.emit_glyphs (m : Mach) (o : Out) : (m.emit o).glyphs = m.glyphs := rfl
@[simp] theorem Mach.emit_encodes (m : Mach) (o : Out) : (m.emit o).encodes = m.encodes := rfl
@[simp] theorem Mach.emit_tags (m : Mach) (o : Out) : (m.emit o).tags = m.tags := rfl
@[simp] theorem Mach.emit_flights (m : Mach) (o : Out) : (m.emit o).flights = m.flights := rfl
@[simp] theorem Mach.emit_awaits (m : Mach) (o : Out) : (m.emit o).awaits = m.awaits := rfl
@[simp] theorem Mach.emit_deferred (m : Mach) (o : Out) : (m.emit o).deferred = m.deferred := rfl
@[simp] theorem Mach.emit_logFilter (m : Mach) (o : Out) : (m.emit o).logFilter = m.logFilter := rfl
@[simp] theorem Mach.emit_log (m : Mach) (o : Out) : (m.emit o).log = m.log := rfl
@[simp] theorem Mach.emit_logSeq (m : Mach) (o : Out) : (m.emit o).logSeq = m.logSeq := rfl
@[simp] theorem Mach.emit_faults (m : Mach) (o : Out) : (m.emit o).faults = m.faults := rfl
@[simp] theorem Mach.emit_faultCfg (m : Mach) (o : Out) : (m.emit o).faultCfg = m.faultCfg := rfl
@[simp] theorem Mach.emit_enc (m : Mach) (o : Out) : (m.emit o).enc = m.enc := rfl
@[simp] theorem Mach.emit_caps (m : Mach) (o : Out) : (m.emit o).caps = m.caps := rfl
@[simp] theorem Mach.emit_rejs (m : Mach) (o : Out) : (m.emit o).rejs = m.rejs := rfl
@[simp] theorem Mach.emit_io24 (m : Mach) (o : Out) : (m.emit o).io24 = m.io24 := rfl
@[simp] theorem Mach.emit_stns (m : Mach) (o : Out) : (m.emit o).stns = m.stns := rfl
@[simp] theorem Mach.emit_decs (m : Mach) (o : Out) : (m.emit o).decs = m.decs := rfl
@[simp] theorem Mach.emit_drv (m : Mach) (o : Out) : (m.emit o).drv = m.drv := rfl
@[simp] theorem Mach.emit_cal (m : Mach) (o : Out) : (m.emit o).cal = m.cal := rfl
@[simp] theorem Mach.emit_tokens (m : Mach) (o : Out) : (m.emit o).tokens = m.tokens := rfl
@[simp] theorem Mach.emit_sec (m : Mach) (o : Out) : (m.emit o).sec = m.sec := rfl
@[simp] theorem Mach.emit_shut (m : Mach) (o : Out) : (m.emit o).shut = m.shut := rfl
@[simp] theorem Mach.emit_sleep (m : Mach) (o : Out) : (m.emit o).sleep = m.sleep := rfl
@[simp] theorem Mach.emit_redund (m : Mach) (o : Out) : (m.emit o).redund = m.redund := rfl
@[simp] theorem Mach.emit_diag (m : Mach) (o : Out) : (m.emit o).diag = m.diag := rfl
@[simp] theorem Mach.emit_side (m : Mach) (o : Out) (d : SideId) : (m.emit o).side d = m.side d := by cases d <;> rfl

/-! ### Holding a word -/

@[simp] theorem Mach.wr_part (m : Mach) (d : SideId) (off : Nat) (v : Word) : (m.wr d off v).part = m.part := by unfold Mach.wr; split <;> simp
@[simp] theorem Mach.wr_fresh (m : Mach) (d : SideId) (off : Nat) (v : Word) : (m.wr d off v).fresh = m.fresh := by unfold Mach.wr; split <;> simp
@[simp] theorem Mach.wr_rtc (m : Mach) (d : SideId) (off : Nat) (v : Word) : (m.wr d off v).rtc = m.rtc := by unfold Mach.wr; split <;> simp
@[simp] theorem Mach.wr_token (m : Mach) (d : SideId) (off : Nat) (v : Word) : (m.wr d off v).token = m.token := by unfold Mach.wr; split <;> simp
@[simp] theorem Mach.wr_safe (m : Mach) (d : SideId) (off : Nat) (v : Word) : (m.wr d off v).safe = m.safe := by unfold Mach.wr; split <;> simp
@[simp] theorem Mach.wr_moving (m : Mach) (d : SideId) (off : Nat) (v : Word) : (m.wr d off v).moving = m.moving := by unfold Mach.wr; split <;> simp
@[simp] theorem Mach.wr_lanes (m : Mach) (d : SideId) (off : Nat) (v : Word) : (m.wr d off v).lanes = m.lanes := by unfold Mach.wr; split <;> simp
@[simp] theorem Mach.wr_ligKey (m : Mach) (d : SideId) (off : Nat) (v : Word) : (m.wr d off v).ligKey = m.ligKey := by unfold Mach.wr; split <;> simp
@[simp] theorem Mach.wr_ligUp (m : Mach) (d : SideId) (off : Nat) (v : Word) : (m.wr d off v).ligUp = m.ligUp := by unfold Mach.wr; split <;> simp
@[simp] theorem Mach.wr_tko (m : Mach) (d : SideId) (off : Nat) (v : Word) : (m.wr d off v).tko = m.tko := by unfold Mach.wr; split <;> simp
@[simp] theorem Mach.wr_power (m : Mach) (d : SideId) (off : Nat) (v : Word) : (m.wr d off v).power = m.power := by unfold Mach.wr; split <;> simp
@[simp] theorem Mach.wr_seq (m : Mach) (d : SideId) (off : Nat) (v : Word) : (m.wr d off v).seq = m.seq := by unfold Mach.wr; split <;> simp
@[simp] theorem Mach.wr_bus (m : Mach) (d : SideId) (off : Nat) (v : Word) : (m.wr d off v).bus = m.bus := by unfold Mach.wr; split <;> simp
@[simp] theorem Mach.wr_ilk (m : Mach) (d : SideId) (off : Nat) (v : Word) : (m.wr d off v).ilk = m.ilk := by unfold Mach.wr; split <;> simp
@[simp] theorem Mach.wr_eng (m : Mach) (d : SideId) (off : Nat) (v : Word) : (m.wr d off v).eng = m.eng := by unfold Mach.wr; split <;> simp
@[simp] theorem Mach.wr_cause (m : Mach) (d : SideId) (off : Nat) (v : Word) : (m.wr d off v).cause = m.cause := by unfold Mach.wr; split <;> simp
@[simp] theorem Mach.wr_armed (m : Mach) (d : SideId) (off : Nat) (v : Word) : (m.wr d off v).armed = m.armed := by unfold Mach.wr; split <;> simp
@[simp] theorem Mach.wr_jobs (m : Mach) (d : SideId) (off : Nat) (v : Word) : (m.wr d off v).jobs = m.jobs := by unfold Mach.wr; split <;> simp
@[simp] theorem Mach.wr_pages (m : Mach) (d : SideId) (off : Nat) (v : Word) : (m.wr d off v).pages = m.pages := by unfold Mach.wr; split <;> simp
@[simp] theorem Mach.wr_nextPage (m : Mach) (d : SideId) (off : Nat) (v : Word) : (m.wr d off v).nextPage = m.nextPage := by unfold Mach.wr; split <;> simp
@[simp] theorem Mach.wr_lastComm (m : Mach) (d : SideId) (off : Nat) (v : Word) : (m.wr d off v).lastComm = m.lastComm := by unfold Mach.wr; split <;> simp
@[simp] theorem Mach.wr_records (m : Mach) (d : SideId) (off : Nat) (v : Word) : (m.wr d off v).records = m.records := by unfold Mach.wr; split <;> simp
@[simp] theorem Mach.wr_counters (m : Mach) (d : SideId) (off : Nat) (v : Word) : (m.wr d off v).counters = m.counters := by unfold Mach.wr; split <;> simp
@[simp] theorem Mach.wr_lots (m : Mach) (d : SideId) (off : Nat) (v : Word) : (m.wr d off v).lots = m.lots := by unfold Mach.wr; split <;> simp
@[simp] theorem Mach.wr_feed (m : Mach) (d : SideId) (off : Nat) (v : Word) : (m.wr d off v).feed = m.feed := by unfold Mach.wr; split <;> simp
@[simp] theorem Mach.wr_regions (m : Mach) (d : SideId) (off : Nat) (v : Word) : (m.wr d off v).regions = m.regions := by unfold Mach.wr; split <;> simp
@[simp] theorem Mach.wr_planes (m : Mach) (d : SideId) (off : Nat) (v : Word) : (m.wr d off v).planes = m.planes := by unfold Mach.wr; split <;> simp
@[simp] theorem Mach.wr_tpls (m : Mach) (d : SideId) (off : Nat) (v : Word) : (m.wr d off v).tpls = m.tpls := by unfold Mach.wr; split <;> simp
@[simp] theorem Mach.wr_glyphs (m : Mach) (d : SideId) (off : Nat) (v : Word) : (m.wr d off v).glyphs = m.glyphs := by unfold Mach.wr; split <;> simp
@[simp] theorem Mach.wr_encodes (m : Mach) (d : SideId) (off : Nat) (v : Word) : (m.wr d off v).encodes = m.encodes := by unfold Mach.wr; split <;> simp
@[simp] theorem Mach.wr_tags (m : Mach) (d : SideId) (off : Nat) (v : Word) : (m.wr d off v).tags = m.tags := by unfold Mach.wr; split <;> simp
@[simp] theorem Mach.wr_flights (m : Mach) (d : SideId) (off : Nat) (v : Word) : (m.wr d off v).flights = m.flights := by unfold Mach.wr; split <;> simp
@[simp] theorem Mach.wr_awaits (m : Mach) (d : SideId) (off : Nat) (v : Word) : (m.wr d off v).awaits = m.awaits := by unfold Mach.wr; split <;> simp
@[simp] theorem Mach.wr_deferred (m : Mach) (d : SideId) (off : Nat) (v : Word) : (m.wr d off v).deferred = m.deferred := by unfold Mach.wr; split <;> simp
@[simp] theorem Mach.wr_logFilter (m : Mach) (d : SideId) (off : Nat) (v : Word) : (m.wr d off v).logFilter = m.logFilter := by unfold Mach.wr; split <;> simp
@[simp] theorem Mach.wr_log (m : Mach) (d : SideId) (off : Nat) (v : Word) : (m.wr d off v).log = m.log := by unfold Mach.wr; split <;> simp
@[simp] theorem Mach.wr_logSeq (m : Mach) (d : SideId) (off : Nat) (v : Word) : (m.wr d off v).logSeq = m.logSeq := by unfold Mach.wr; split <;> simp
@[simp] theorem Mach.wr_faults (m : Mach) (d : SideId) (off : Nat) (v : Word) : (m.wr d off v).faults = m.faults := by unfold Mach.wr; split <;> simp
@[simp] theorem Mach.wr_faultCfg (m : Mach) (d : SideId) (off : Nat) (v : Word) : (m.wr d off v).faultCfg = m.faultCfg := by unfold Mach.wr; split <;> simp
@[simp] theorem Mach.wr_enc (m : Mach) (d : SideId) (off : Nat) (v : Word) : (m.wr d off v).enc = m.enc := by unfold Mach.wr; split <;> simp
@[simp] theorem Mach.wr_caps (m : Mach) (d : SideId) (off : Nat) (v : Word) : (m.wr d off v).caps = m.caps := by unfold Mach.wr; split <;> simp
@[simp] theorem Mach.wr_rejs (m : Mach) (d : SideId) (off : Nat) (v : Word) : (m.wr d off v).rejs = m.rejs := by unfold Mach.wr; split <;> simp
@[simp] theorem Mach.wr_io24 (m : Mach) (d : SideId) (off : Nat) (v : Word) : (m.wr d off v).io24 = m.io24 := by unfold Mach.wr; split <;> simp
@[simp] theorem Mach.wr_stns (m : Mach) (d : SideId) (off : Nat) (v : Word) : (m.wr d off v).stns = m.stns := by unfold Mach.wr; split <;> simp
@[simp] theorem Mach.wr_decs (m : Mach) (d : SideId) (off : Nat) (v : Word) : (m.wr d off v).decs = m.decs := by unfold Mach.wr; split <;> simp
@[simp] theorem Mach.wr_drv (m : Mach) (d : SideId) (off : Nat) (v : Word) : (m.wr d off v).drv = m.drv := by unfold Mach.wr; split <;> simp
@[simp] theorem Mach.wr_cal (m : Mach) (d : SideId) (off : Nat) (v : Word) : (m.wr d off v).cal = m.cal := by unfold Mach.wr; split <;> simp
@[simp] theorem Mach.wr_tokens (m : Mach) (d : SideId) (off : Nat) (v : Word) : (m.wr d off v).tokens = m.tokens := by unfold Mach.wr; split <;> simp
@[simp] theorem Mach.wr_sec (m : Mach) (d : SideId) (off : Nat) (v : Word) : (m.wr d off v).sec = m.sec := by unfold Mach.wr; split <;> simp
@[simp] theorem Mach.wr_shut (m : Mach) (d : SideId) (off : Nat) (v : Word) : (m.wr d off v).shut = m.shut := by unfold Mach.wr; split <;> simp
@[simp] theorem Mach.wr_sleep (m : Mach) (d : SideId) (off : Nat) (v : Word) : (m.wr d off v).sleep = m.sleep := by unfold Mach.wr; split <;> simp
@[simp] theorem Mach.wr_redund (m : Mach) (d : SideId) (off : Nat) (v : Word) : (m.wr d off v).redund = m.redund := by unfold Mach.wr; split <;> simp
@[simp] theorem Mach.wr_diag (m : Mach) (d : SideId) (off : Nat) (v : Word) : (m.wr d off v).diag = m.diag := by unfold Mach.wr; split <;> simp
@[simp] theorem Mach.wr_out (m : Mach) (d : SideId) (off : Nat) (v : Word) : (m.wr d off v).out = m.out := by unfold Mach.wr; split <;> simp

/-! ### The shell of the module -/

@[simp] theorem Mach.shell_part (m : Mach) : m.shell.part = m.part := rfl
@[simp] theorem Mach.shell_fresh (m : Mach) : m.shell.fresh = m.fresh := rfl
@[simp] theorem Mach.shell_rtc (m : Mach) : m.shell.rtc = m.rtc := rfl
@[simp] theorem Mach.shell_token (m : Mach) : m.shell.token = m.token := rfl
@[simp] theorem Mach.shell_safe (m : Mach) : m.shell.safe = m.safe := rfl
@[simp] theorem Mach.shell_moving (m : Mach) : m.shell.moving = m.moving := rfl
@[simp] theorem Mach.shell_lanes (m : Mach) : m.shell.lanes = m.lanes := rfl
@[simp] theorem Mach.shell_ligKey (m : Mach) : m.shell.ligKey = m.ligKey := rfl
@[simp] theorem Mach.shell_ligUp (m : Mach) : m.shell.ligUp = m.ligUp := rfl
@[simp] theorem Mach.shell_tko (m : Mach) : m.shell.tko = m.tko := rfl
@[simp] theorem Mach.shell_power (m : Mach) : m.shell.power = m.power := rfl
@[simp] theorem Mach.shell_seq (m : Mach) : m.shell.seq = m.seq := rfl
@[simp] theorem Mach.shell_bus (m : Mach) : m.shell.bus = m.bus := rfl
@[simp] theorem Mach.shell_ilk (m : Mach) : m.shell.ilk = m.ilk := rfl
@[simp] theorem Mach.shell_eng (m : Mach) : m.shell.eng = m.eng := rfl
@[simp] theorem Mach.shell_cause (m : Mach) : m.shell.cause = m.cause := rfl
@[simp] theorem Mach.shell_armed (m : Mach) : m.shell.armed = m.armed := rfl
@[simp] theorem Mach.shell_jobs (m : Mach) : m.shell.jobs = m.jobs := rfl
@[simp] theorem Mach.shell_pages (m : Mach) : m.shell.pages = m.pages := rfl
@[simp] theorem Mach.shell_nextPage (m : Mach) : m.shell.nextPage = m.nextPage := rfl
@[simp] theorem Mach.shell_lastComm (m : Mach) : m.shell.lastComm = m.lastComm := rfl
@[simp] theorem Mach.shell_records (m : Mach) : m.shell.records = m.records := rfl
@[simp] theorem Mach.shell_counters (m : Mach) : m.shell.counters = m.counters := rfl
@[simp] theorem Mach.shell_lots (m : Mach) : m.shell.lots = m.lots := rfl
@[simp] theorem Mach.shell_feed (m : Mach) : m.shell.feed = m.feed := rfl
@[simp] theorem Mach.shell_regions (m : Mach) : m.shell.regions = m.regions := rfl
@[simp] theorem Mach.shell_planes (m : Mach) : m.shell.planes = m.planes := rfl
@[simp] theorem Mach.shell_tpls (m : Mach) : m.shell.tpls = m.tpls := rfl
@[simp] theorem Mach.shell_glyphs (m : Mach) : m.shell.glyphs = m.glyphs := rfl
@[simp] theorem Mach.shell_encodes (m : Mach) : m.shell.encodes = m.encodes := rfl
@[simp] theorem Mach.shell_tags (m : Mach) : m.shell.tags = m.tags := rfl
@[simp] theorem Mach.shell_flights (m : Mach) : m.shell.flights = m.flights := rfl
@[simp] theorem Mach.shell_awaits (m : Mach) : m.shell.awaits = m.awaits := rfl
@[simp] theorem Mach.shell_deferred (m : Mach) : m.shell.deferred = m.deferred := rfl
@[simp] theorem Mach.shell_logFilter (m : Mach) : m.shell.logFilter = m.logFilter := rfl
@[simp] theorem Mach.shell_faults (m : Mach) : m.shell.faults = m.faults := rfl
@[simp] theorem Mach.shell_faultCfg (m : Mach) : m.shell.faultCfg = m.faultCfg := rfl
@[simp] theorem Mach.shell_enc (m : Mach) : m.shell.enc = m.enc := rfl
@[simp] theorem Mach.shell_caps (m : Mach) : m.shell.caps = m.caps := rfl
@[simp] theorem Mach.shell_rejs (m : Mach) : m.shell.rejs = m.rejs := rfl
@[simp] theorem Mach.shell_io24 (m : Mach) : m.shell.io24 = m.io24 := rfl
@[simp] theorem Mach.shell_stns (m : Mach) : m.shell.stns = m.stns := rfl
@[simp] theorem Mach.shell_decs (m : Mach) : m.shell.decs = m.decs := rfl
@[simp] theorem Mach.shell_drv (m : Mach) : m.shell.drv = m.drv := rfl
@[simp] theorem Mach.shell_cal (m : Mach) : m.shell.cal = m.cal := rfl
@[simp] theorem Mach.shell_tokens (m : Mach) : m.shell.tokens = m.tokens := rfl
@[simp] theorem Mach.shell_sec (m : Mach) : m.shell.sec = m.sec := rfl
@[simp] theorem Mach.shell_shut (m : Mach) : m.shell.shut = m.shut := rfl
@[simp] theorem Mach.shell_sleep (m : Mach) : m.shell.sleep = m.sleep := rfl
@[simp] theorem Mach.shell_redund (m : Mach) : m.shell.redund = m.redund := rfl
@[simp] theorem Mach.shell_diag (m : Mach) : m.shell.diag = m.diag := rfl
@[simp] theorem Mach.shell_side (m : Mach) (d : SideId) : m.shell.side d = (m.side d).shell := by cases d <;> rfl
@[simp] theorem Side.shell_st (s : Side) : s.shell.st = s.st := rfl
@[simp] theorem Side.shell_step (s : Side) : s.shell.step = s.step := rfl
@[simp] theorem Side.shell_own (s : Side) : s.shell.own = s.own := rfl
@[simp] theorem Side.shell_latch (s : Side) : s.shell.latch = s.latch := rfl
@[simp] theorem Side.shell_ring (s : Side) : s.shell.ring = s.ring := rfl
@[simp] theorem Side.shell_linkUp (s : Side) : s.shell.linkUp = s.linkUp := rfl
@[simp] theorem Side.shell_endpoint (s : Side) : s.shell.endpoint = s.endpoint := rfl
@[simp] theorem Side.shell_d3 (s : Side) : s.shell.d3 = s.d3 := rfl
@[simp] theorem Side.shell_l1 (s : Side) : s.shell.l1 = s.l1 := rfl
@[simp] theorem Side.shell_snapSeq (s : Side) : s.shell.snapSeq = s.snapSeq := rfl
@[simp] theorem Side.shell_published (s : Side) : s.shell.published = s.published := rfl
@[simp] theorem Side.shell_boots (s : Side) : s.shell.boots = s.boots := rfl
@[simp] theorem Side.shell_imc (s : Side) : s.shell.imc = s.imc := rfl
@[simp] theorem Side.shell_dma (s : Side) : s.shell.dma = s.dma := rfl
@[simp] theorem Side.shell_feeds (s : Side) : s.shell.feeds = s.feeds := rfl
@[simp] theorem Side.shell_alive (s : Side) : s.shell.alive = s.alive := rfl
@[simp] theorem Side.shell_faultN (s : Side) : s.shell.faultN = s.faultN := rfl
@[simp] theorem Side.shell_bankTry (s : Side) : s.shell.bankTry = s.bankTry := rfl
@[simp] theorem Side.shell_fell (s : Side) : s.shell.fell = s.fell := rfl
@[simp] theorem Side.shell_boot (s : Side) : s.shell.boot = s.boot := rfl
@[simp] theorem Side.shell_bankA (s : Side) : s.shell.bankA = s.bankA := rfl
@[simp] theorem Side.shell_bankB (s : Side) : s.shell.bankB = s.bankB := rfl
@[simp] theorem Side.shell_core (s : Side) : s.shell.core = s.core := rfl

end Sys2Proof.Machine
end

