-- ==== Sys2Proof/Laws/Lift.lean ====
section
/-!
SUPPORT. What a command's wrapper can do: it takes a next state, the queue stays, the token stays unless the command may move it, and
image memory stays unless the command acts on it.
-/

namespace Sys2Proof.Machine

/-- A command on the module takes a next state: the module as its function leaves it, with the token and the part as they were. -/
theorem onM_eq (f : Mach → Mach) (s : State) :
    onM f s = .next { s with m := { f s.tick with token := s.m.token, part := s.m.part } } := rfl

/-- A command that may move the token takes the next state that its function gives. -/
theorem onToken_eq (f : Mach → Mach) (s : State) : onToken f s = .next { s with m := { f s.tick with part := s.m.part } } := rfl

/-- A command that reads image memory takes a next state with the same image memory. -/
theorem onImg_eq (f : Images → Mach → Mach) (s : State) :
    onImg f s = .next { s with m := { f s.img s.tick with token := s.m.token, part := s.m.part } } := rfl

/-- A command on image memory takes the next state that its function gives. -/
theorem onMem_eq (f : Images → Mach → Images × Mach) (s : State) :
    onMem f s = .next
      { s with m := { (f s.img s.tick).2 with token := s.m.token, part := s.m.part }, img := (f s.img s.tick).1 } := rfl

/-- A function that leaves the token and the part gives the module itself. -/
theorem onM_keeps (f : Mach → Mach) (s : State) (h : (f s.tick).token = s.m.token) (hp : (f s.tick).part = s.m.part) :
    onM f s = .next { s with m := f s.tick } := by
  have : { f s.tick with token := s.m.token, part := s.m.part } = f s.tick := by rw [← h, ← hp]
  rw [onM_eq, this]

/-- A function that leaves the part gives the module itself. -/
theorem onToken_keeps (f : Mach → Mach) (s : State) (hp : (f s.tick).part = s.m.part) : onToken f s = .next { s with m := f s.tick } := by
  have : { f s.tick with part := s.m.part } = f s.tick := by rw [← hp]
  rw [onToken_eq, this]

/-! ### The number for free values -/

@[simp] theorem State.tick_fresh (s : State) : s.tick.fresh = s.m.fresh + 1 := rfl
@[simp] theorem State.tick_part (s : State) : s.tick.part = s.m.part := rfl
@[simp] theorem State.tick_token (s : State) : s.tick.token = s.m.token := rfl
@[simp] theorem State.tick_side (s : State) (d : SideId) : s.tick.side d = s.m.side d := by cases d <;> rfl
@[simp] theorem State.tick_rd (s : State) (d : SideId) (off : Nat) : s.tick.rd d off = s.m.rd d off := by
  unfold Mach.rd; rw [State.tick_side]; rfl
@[simp] theorem State.tick_inService (s : State) (d : SideId) : s.tick.inService d = s.m.inService d := by cases d <;> rfl

end Sys2Proof.Machine
end

