-- ==== Sys2Proof/Laws/Tab.lean ====
section
/-!
SUPPORT. What the operations on sorted association lists do: reading after writing, and that the canonical form is kept.
-/

namespace Sys2Proof.Machine

variable {α : Type}

@[simp] theorem tabFind_nil (x : Nat) : tabFind ([] : Tab α) x = none := rfl

/-- Reading the key just written. -/
@[simp] theorem tabFind_tabPut_self (t : Tab α) (x : Nat) (v : α) : tabFind (tabPut t x v) x = some v := by
  induction t with
  | nil => simp [tabPut, tabFind]
  | cons p t ih =>
    obtain ⟨k, w⟩ := p
    simp only [tabPut]
    split
    · simp [tabFind]
    · split
      · simp [tabFind]
      · rename_i h1 h2
        simp only [tabFind, if_neg (Ne.symm h2), ih]

/-- Writing one key leaves every other key as it was. -/
theorem tabFind_tabPut_ne (t : Tab α) {x y : Nat} (v : α) (h : y ≠ x) : tabFind (tabPut t x v) y = tabFind t y := by
  induction t with
  | nil => simp [tabPut, tabFind, Ne.symm h]
  | cons p t ih =>
    obtain ⟨k, w⟩ := p
    simp only [tabPut]
    split
    · simp [tabFind, Ne.symm h]
    · split
      · rename_i h1 h2
        subst h2
        simp [tabFind, Ne.symm h]
      · simp only [tabFind, ih]

/-- Reading any key after a write. -/
theorem tabFind_tabPut (t : Tab α) (x y : Nat) (v : α) :
    tabFind (tabPut t x v) y = if y = x then some v else tabFind t y := by
  by_cases h : y = x
  · subst h; simp
  · simp [h, tabFind_tabPut_ne t v h]

/-- Removing one key leaves every other key as it was. -/
theorem tabFind_tabErase_ne (t : Tab α) {x y : Nat} (h : y ≠ x) : tabFind (tabErase t x) y = tabFind t y := by
  induction t with
  | nil => rfl
  | cons p t ih =>
    obtain ⟨k, w⟩ := p
    simp only [tabErase]
    split
    · rename_i hk
      subst hk
      simp [tabFind, Ne.symm h, ih]
    · simp only [tabFind, ih]

/-- `b` is below every key of the list. -/
def tabAbove (b : Nat) (t : Tab α) : Prop := ∀ p ∈ t, b < p.1

/-- A sorted list is its head below the rest, and the rest sorted. -/
theorem tabSorted_cons {k : Nat} {w : α} {t : Tab α} :
    tabSorted ((k, w) :: t) = true ↔ tabAbove k t ∧ tabSorted t = true := by
  induction t generalizing k w with
  | nil => simp [tabSorted, tabAbove]
  | cons p t ih =>
    obtain ⟨k', w'⟩ := p
    simp only [tabSorted, Bool.and_eq_true, decide_eq_true_eq]
    constructor
    · intro h
      refine ⟨?_, h.2⟩
      intro q hq
      rcases List.mem_cons.1 hq with rfl | hq
      · exact h.1
      · exact Nat.lt_trans h.1 ((ih.1 h.2).1 q hq)
    · intro h
      exact ⟨h.1 (k', w') (by simp), h.2⟩

/-- The key removed is gone. -/
@[simp] theorem tabFind_tabErase_self (t : Tab α) (x : Nat) : tabFind (tabErase t x) x = none := by
  induction t with
  | nil => rfl
  | cons p t ih =>
    obtain ⟨k, w⟩ := p
    simp only [tabErase]
    split
    · exact ih
    · rename_i hk
      simp only [tabFind, if_neg hk, ih]

theorem mem_tabPut {t : Tab α} {x : Nat} {v : α} {p : Nat × α} (h : p ∈ tabPut t x v) : p = (x, v) ∨ p ∈ t := by
  induction t with
  | nil => simp [tabPut] at h; exact .inl h
  | cons q t ih =>
    obtain ⟨k, w⟩ := q
    simp only [tabPut] at h
    split at h
    · simpa using h
    · split at h
      · rcases List.mem_cons.1 h with h | h
        · exact .inl h
        · exact .inr (by simp [h])
      · rcases List.mem_cons.1 h with h | h
        · exact .inr (by simp [h])
        · rcases ih h with h | h
          · exact .inl h
          · exact .inr (by simp [h])

theorem mem_tabErase {t : Tab α} {x : Nat} {p : Nat × α} (h : p ∈ tabErase t x) : p ∈ t := by
  induction t with
  | nil => simp [tabErase] at h
  | cons q t ih =>
    obtain ⟨k, w⟩ := q
    simp only [tabErase] at h
    split at h
    · simp [ih h]
    · rcases List.mem_cons.1 h with h | h
      · simp [h]
      · simp [ih h]

/-- A write keeps the keys rising. -/
theorem tabSorted_tabPut {t : Tab α} (x : Nat) (v : α) (h : tabSorted t = true) : tabSorted (tabPut t x v) = true := by
  induction t with
  | nil => rfl
  | cons q t ih =>
    obtain ⟨k, w⟩ := q
    have hs := tabSorted_cons.1 h
    simp only [tabPut]
    split
    · rename_i hk
      exact tabSorted_cons.2 ⟨fun p hp => by
        rcases List.mem_cons.1 hp with rfl | hp
        · exact hk
        · exact Nat.lt_trans hk (hs.1 p hp), h⟩
    · split
      · rename_i hk
        subst hk
        exact tabSorted_cons.2 hs
      · refine tabSorted_cons.2 ⟨fun p hp => ?_, ih hs.2⟩
        rcases mem_tabPut hp with rfl | hp
        · show k < x; omega
        · exact hs.1 p hp

/-- A removal keeps the keys rising. -/
theorem tabSorted_tabErase {t : Tab α} (x : Nat) (h : tabSorted t = true) : tabSorted (tabErase t x) = true := by
  induction t with
  | nil => rfl
  | cons q t ih =>
    obtain ⟨k, w⟩ := q
    have hs := tabSorted_cons.1 h
    simp only [tabErase]
    split
    · exact ih hs.2
    · exact tabSorted_cons.2 ⟨fun p hp => hs.1 p (mem_tabErase hp), ih hs.2⟩

/-- A sorted list stays sorted when entries are dropped. -/
theorem tabSorted_filter {t : Tab α} (f : Nat × α → Bool) (h : tabSorted t = true) : tabSorted (t.filter f) = true := by
  induction t with
  | nil => rfl
  | cons q t ih =>
    obtain ⟨k, w⟩ := q
    have hs := tabSorted_cons.1 h
    simp only [List.filter]
    split
    · exact tabSorted_cons.2 ⟨fun p hp => hs.1 p (List.mem_filter.1 hp).1, ih hs.2⟩
    · exact ih hs.2

section Sparse

variable [DecidableEq α]

theorem sparseWf_iff {d : Nat → α} {t : Tab α} :
    sparseWf d t = true ↔ tabSorted t = true ∧ ∀ p ∈ t, p.2 ≠ d p.1 := by
  simp [sparseWf, List.all_eq_true]

/-- A sparse write keeps the canonical form. -/
theorem sparseWf_sparsePut {d : Nat → α} {t : Tab α} (x : Nat) (v : α) (h : sparseWf d t = true) :
    sparseWf d (sparsePut d t x v) = true := by
  rw [sparseWf_iff] at h ⊢
  unfold sparsePut
  split
  · exact ⟨tabSorted_tabErase x h.1, fun p hp => h.2 p (mem_tabErase hp)⟩
  · rename_i hv
    refine ⟨tabSorted_tabPut x v h.1, fun p hp => ?_⟩
    rcases mem_tabPut hp with rfl | hp
    · exact hv
    · exact h.2 p hp

/-- A sparse list stays canonical when entries are dropped. -/
theorem sparseWf_filter {d : Nat → α} {t : Tab α} (f : Nat × α → Bool) (h : sparseWf d t = true) :
    sparseWf d (t.filter f) = true := by
  rw [sparseWf_iff] at h ⊢
  exact ⟨tabSorted_filter f h.1, fun p hp => h.2 p (List.mem_filter.1 hp).1⟩

/-- Reading another key after a sparse write. -/
theorem sparseGet_sparsePut_ne {d : Nat → α} (t : Tab α) {x y : Nat} (v : α) (h : y ≠ x) :
    sparseGet d (sparsePut d t x v) y = sparseGet d t y := by
  unfold sparseGet sparsePut tabGet
  split
  · rw [tabFind_tabErase_ne t h]
  · rw [tabFind_tabPut_ne t v h]

/-- Reading the key just written. -/
@[simp] theorem sparseGet_sparsePut_self {d : Nat → α} (t : Tab α) (x : Nat) (v : α) :
    sparseGet d (sparsePut d t x v) x = v := by
  unfold sparseGet sparsePut tabGet
  split
  · rename_i hv
    rw [tabFind_tabErase_self t x, hv]; rfl
  · simp

/-- Reading any key after a sparse write. -/
theorem sparseGet_sparsePut {d : Nat → α} (t : Tab α) (x y : Nat) (v : α) :
    sparseGet d (sparsePut d t x v) y = if y = x then v else sparseGet d t y := by
  by_cases h : y = x
  · subst h; simp
  · rw [if_neg h, sparseGet_sparsePut_ne t v h]

/-- Canonical sparse lists that read the same everywhere are equal. -/
theorem sparse_ext {d : Nat → α} {t u : Tab α} (ht : sparseWf d t = true) (hu : sparseWf d u = true)
    (h : ∀ x, sparseGet d t x = sparseGet d u x) : t = u := by
  have none_of_above : ∀ (w : Tab α) (k x : Nat), tabAbove k w → x ≤ k → tabFind w x = none := by
    intro w k x hw hx
    induction w with
    | nil => rfl
    | cons q w ih =>
      obtain ⟨k', v'⟩ := q
      have : k < k' := hw (k', v') (by simp)
      have hne : k' ≠ x := by omega
      simp only [tabFind, if_neg hne]
      exact ih (fun p hp => hw p (by simp [hp]))
  rw [sparseWf_iff] at ht hu
  induction t generalizing u with
  | nil =>
    cases u with
    | nil => rfl
    | cons q u =>
      obtain ⟨k, v⟩ := q
      have := h k
      simp only [sparseGet, tabGet, tabFind, Option.getD] at this
      exact absurd this.symm (by simpa using hu.2 (k, v) (by simp))
  | cons p t ih =>
    obtain ⟨k, v⟩ := p
    cases u with
    | nil =>
      have := h k
      simp only [sparseGet, tabGet, tabFind, Option.getD] at this
      exact absurd this (by simpa using ht.2 (k, v) (by simp))
    | cons q u =>
      obtain ⟨k', v'⟩ := q
      have hst := tabSorted_cons.1 ht.1
      have hsu := tabSorted_cons.1 hu.1
      rcases Nat.lt_trichotomy k k' with hk | hk | hk
      · have := h k
        have hne : k' ≠ k := by omega
        simp only [sparseGet, tabGet, tabFind, if_neg hne, none_of_above u k' k hsu.1 (by omega), if_true, Option.getD] at this
        exact absurd this (by simpa using ht.2 (k, v) (by simp))
      · subst hk
        have hv := h k
        simp only [sparseGet, tabGet, tabFind, if_true, Option.getD] at hv
        subst hv
        have htail : t = u := by
          apply ih ⟨hst.2, fun p hp => ht.2 p (by simp [hp])⟩ ⟨hsu.2, fun p hp => hu.2 p (by simp [hp])⟩
          intro x
          by_cases hx : k = x
          · subst hx
            simp only [sparseGet, tabGet, none_of_above t k k hst.1 (Nat.le_refl _), none_of_above u k k hsu.1 (Nat.le_refl _)]
          · have := h x
            simpa only [sparseGet, tabGet, tabFind, if_neg hx] using this
        rw [htail]
      · have := h k'
        have hne : k ≠ k' := by omega
        simp only [sparseGet, tabGet, tabFind, if_neg hne, none_of_above t k k' hst.1 (by omega), if_true, Option.getD] at this
        exact absurd this.symm (by simpa using hu.2 (k', v') (by simp))

end Sparse

end Sys2Proof.Machine
end

