-- ==== Sys2Proof/Laws/Ops.lean ====
section
/-!
SUPPORT. What the shared operations can do: writing a register changes only that register; an event changes only the event router,
the MSI-X state and what leaves the module; a log entry changes only the log, its rings and what they bring about.
-/

namespace Sys2Proof.Machine

/-! ### Registers -/

/-- Reading the word just written. -/
@[simp] theorem Mach.rd_wr_self (m : Mach) (d : SideId) (off : Nat) (v : Word) : (m.wr d off v).rd d off = v := by
  unfold Mach.rd Mach.wr
  cases moduleWide off <;> simp

/-- Writing a register of a side leaves every other offset as it was, on both sides. -/
theorem Mach.rd_wr_ne (m : Mach) (d e : SideId) {off x : Nat} (v : Word) (h : x ≠ off) : (m.wr d off v).rd e x = m.rd e x := by
  unfold Mach.rd Mach.wr
  cases hx : moduleWide x <;> cases ho : moduleWide off
  · by_cases hd : e = d
    · subst hd
      simp [sparseGet_sparsePut_ne _ v h]
    · simp [Mach.side_modSide_ne m _ hd]
  · cases e <;> rfl
  · simp
  · simp [sparseGet_sparsePut_ne _ v h]

/-- Writing a register of one side leaves the other side's as it was, where it is not module-wide. -/
theorem Mach.rd_wr_side (m : Mach) {d e : SideId} (off x : Nat) (v : Word) (h : e ≠ d) (hm : moduleWide off = false) :
    (m.wr d off v).rd e x = m.rd e x := by
  unfold Mach.rd Mach.wr
  rw [hm]
  cases hx : moduleWide x <;> simp [Mach.side_modSide_ne m _ h]

/-- A module-wide register is one for both sides. -/
theorem Mach.rd_moduleWide (m : Mach) (d e : SideId) {off : Nat} (h : moduleWide off = true) : m.rd d off = m.rd e off := by
  simp [Mach.rd, h]

@[simp] theorem Mach.wr_shell (m : Mach) (d : SideId) (off : Nat) (v : Word) : (m.wr d off v).shell = m.shell := by
  unfold Mach.wr
  cases moduleWide off
  · cases d <;> rfl
  · rfl

@[simp] theorem Mach.put_shell (m : Mach) (d : SideId) (off lo len v : Nat) : (m.put d off lo len v).shell = m.shell :=
  Mach.wr_shell m d off _

@[simp] theorem Mach.setMgt_shell (m : Mach) (d : SideId) (bit : Nat) (v : Bool) : (m.setMgt d bit v).shell = m.shell :=
  Mach.put_shell m d mgtStat bit 1 _

@[simp] theorem Mach.wrB_shell (m : Mach) (off : Nat) (v : Word) : (m.wrB off v).shell = m.shell := by
  unfold Mach.wrB
  simp only
  split <;> simp

@[simp] theorem Mach.putB_shell (m : Mach) (off lo len v : Nat) : (m.putB off lo len v).shell = m.shell := by
  unfold Mach.putB
  simp only
  split <;> simp

@[simp] theorem Mach.setB_shell (m : Mach) (off i : Nat) (v : Bool) : (m.setB off i v).shell = m.shell := Mach.putB_shell m off i 1 _

@[simp] theorem Mach.addB_shell (m : Mach) (off n : Nat) : (m.addB off n).shell = m.shell := Mach.wrB_shell m off _

@[simp] theorem Mach.addSatB_shell (m : Mach) (off n bound : Nat) : (m.addSatB off n bound).shell = m.shell := Mach.wrB_shell m off _

@[simp] theorem Mach.addSatF_shell (m : Mach) (off lo len n : Nat) : (m.addSatF off lo len n).shell = m.shell :=
  Mach.putB_shell m off lo len _

@[simp] theorem Mach.addSat_shell (m : Mach) (d : SideId) (off n : Nat) : (m.addSat d off n).shell = m.shell := Mach.wr_shell m d off _

@[simp] theorem Mach.wrB64_shell (m : Mach) (off : Nat) (v : Int) : (m.wrB64 off v).shell = m.shell := by simp [Mach.wrB64]

/-- What a write on every side in service leaves at the offset on the token holder's side. -/
@[simp] theorem Mach.rdA_wrB_self (m : Mach) (off : Nat) (v : Word) : (m.wrB off v).rdA off = v := by
  unfold Mach.wrB Mach.rdA
  simp only
  split
  · cases hm : moduleWide off
    · rw [Mach.wr_token, Mach.wr_token, Mach.rd_wr_side _ _ _ _ (SideId.other_ne m.token).symm hm, Mach.rd_wr_self]
    · rw [Mach.wr_token, Mach.wr_token, Mach.rd_moduleWide _ m.token m.token.other hm, Mach.rd_wr_self]
  · simp

/-- A write on every side in service leaves every other offset as it was. -/
theorem Mach.rd_wrB_ne (m : Mach) (e : SideId) {off x : Nat} (v : Word) (h : x ≠ off) : (m.wrB off v).rd e x = m.rd e x := by
  unfold Mach.wrB
  simp only
  split
  · rw [Mach.rd_wr_ne _ _ _ _ h, Mach.rd_wr_ne _ _ _ _ h]
  · rw [Mach.rd_wr_ne _ _ _ _ h]

/-! ### What events change -/

@[simp] theorem Mach.emit_shell (m : Mach) (o : Out) : (m.emit o).shell = m.shell := rfl

@[simp] theorem Mach.emit_rd (m : Mach) (o : Out) (d : SideId) (off : Nat) : (m.emit o).rd d off = m.rd d off := by
  unfold Mach.rd; simp

/-- Replacing a side by one that differs in the event router and the MSI-X state keeps the registers. -/
theorem Mach.rd_setSide (m : Mach) (d e : SideId) (x : Side) (off : Nat) (h : x.regs = (m.side d).regs) :
    (m.setSide d x).rd e off = m.rd e off := by
  unfold Mach.rd
  by_cases he : e = d
  · subst he; simp [h]
  · simp [Mach.side_setSide_ne m x he]

theorem Mach.shell_setSide (m : Mach) (d : SideId) (x : Side) (h : x.shell = (m.side d).shell) :
    (m.setSide d x).shell = m.shell := by
  cases d
  · show { m.shell with a := x.shell } = m.shell
    rw [h]; rfl
  · show { m.shell with b := x.shell } = m.shell
    rw [h]; rfl

@[simp] theorem Mach.fire_shell (m : Mach) (d : SideId) (v : Nat) : (m.fire d v).shell = m.shell := by
  unfold Mach.fire
  simp only
  split
  · rw [Mach.emit_shell]; exact Mach.shell_setSide m d _ rfl
  · exact Mach.shell_setSide m d _ rfl

@[simp] theorem Mach.fire_rd (m : Mach) (d e : SideId) (v off : Nat) : (m.fire d v).rd e off = m.rd e off := by
  unfold Mach.fire
  simp only
  split
  · rw [Mach.emit_rd]; exact Mach.rd_setSide m d e _ off rfl
  · exact Mach.rd_setSide m d e _ off rfl

@[simp] theorem Mach.fire_log (m : Mach) (d : SideId) (v : Nat) : (m.fire d v).log = m.log := by
  unfold Mach.fire
  simp only
  split <;> simp

@[simp] theorem Mach.countVec_shell (m : Mach) (d : SideId) (v : Nat) : (m.countVec d v).shell = m.shell := by
  unfold Mach.countVec
  simp only
  repeat' split
  all_goals first | exact Mach.fire_shell m d v | exact Mach.shell_setSide m d _ rfl

@[simp] theorem Mach.countVec_rd (m : Mach) (d e : SideId) (v off : Nat) : (m.countVec d v).rd e off = m.rd e off := by
  unfold Mach.countVec
  simp only
  repeat' split
  all_goals first | exact Mach.fire_rd m d e v off | exact Mach.rd_setSide m d e _ off rfl

@[simp] theorem Mach.countVec_log (m : Mach) (d : SideId) (v : Nat) : (m.countVec d v).log = m.log := by
  unfold Mach.countVec
  simp only
  repeat' split
  all_goals simp

/-- An event leaves everything but the event router, the MSI-X state and what leaves the module. -/
@[simp] theorem Mach.raiseOn_shell (m : Mach) (d : SideId) (n : Nat) : (m.raiseOn d n).shell = m.shell := by
  unfold Mach.raiseOn
  simp only
  repeat' split
  · rfl
  · exact Mach.shell_setSide m d _ rfl
  · rw [Mach.countVec_shell]; exact Mach.shell_setSide m d _ rfl

/-- An event changes no register. -/
@[simp] theorem Mach.raiseOn_rd (m : Mach) (d e : SideId) (n off : Nat) : (m.raiseOn d n).rd e off = m.rd e off := by
  unfold Mach.raiseOn
  simp only
  repeat' split
  · rfl
  · exact Mach.rd_setSide m d e _ off rfl
  · rw [Mach.countVec_rd]; exact Mach.rd_setSide m d e _ off rfl

/-- An event makes no log entry by itself. -/
@[simp] theorem Mach.raiseOn_log (m : Mach) (d : SideId) (n : Nat) : (m.raiseOn d n).log = m.log := by
  unfold Mach.raiseOn
  simp only
  repeat' split
  all_goals simp

@[simp] theorem Mach.raise_shell (m : Mach) (n : Nat) : (m.raise n).shell = m.shell := by simp [Mach.raise]

@[simp] theorem Mach.raise_rd (m : Mach) (e : SideId) (n off : Nat) : (m.raise n).rd e off = m.rd e off := by simp [Mach.raise]

@[simp] theorem Mach.raise_log (m : Mach) (n : Nat) : (m.raise n).log = m.log := by simp [Mach.raise]

/-! ### The pending bits of events -/

/-- A vector that counts or fires leaves the pending bits. -/
theorem Mach.fire_pend (m : Mach) (d e : SideId) (v : Nat) : ((m.fire d v).side e).evt.pend = (m.side e).evt.pend := by
  unfold Mach.fire
  simp only
  by_cases he : e = d
  · subst he; split <;> simp
  · split <;> simp [Mach.side_setSide_ne m _ he]

theorem Mach.countVec_pend (m : Mach) (d e : SideId) (v : Nat) : ((m.countVec d v).side e).evt.pend = (m.side e).evt.pend := by
  unfold Mach.countVec
  simp only
  by_cases he : e = d
  · subst he; repeat' split
    all_goals simp [Mach.fire_pend]
  · repeat' split
    all_goals first | exact Mach.fire_pend m d e v | simp [Mach.side_setSide_ne m _ he]

/-- An event that the part has sets its pending bit on a side that runs (R165, R171). -/
theorem Mach.raiseOn_pend (m : Mach) (d : SideId) (n : Nat) (hp : eventAbsent m.part n = false) (hf : m.fitted d = true)
    (hs : (m.side d).st ≠ .down) :
    ((m.raiseOn d n).side d).evt.pend = (m.side d).evt.pend ||| BitVec.ofNat 128 (1 <<< n) := by
  unfold Mach.raiseOn
  have : ((m.side d).st == SideState.down) = false := by simp [hs]
  simp only [hp, hf, this, Bool.not_true, Bool.or_self, Bool.false_eq_true, if_false]
  split
  · simp
  · rw [Mach.countVec_pend]; simp

/-- An event leaves the other side's router as it was. -/
theorem Mach.raiseOn_pend_ne (m : Mach) {d e : SideId} (n : Nat) (h : e ≠ d) :
    ((m.raiseOn d n).side e).evt.pend = (m.side e).evt.pend := by
  unfold Mach.raiseOn
  simp only
  repeat' split
  · rfl
  · simp [Mach.side_setSide_ne m _ h]
  · rw [Mach.countVec_pend]; simp [Mach.side_setSide_ne m _ h]

/-! ### What rings and the log change -/

@[simp] theorem Mach.ringMove_shell (m : Mach) (d : SideId) (n new : Nat) : (m.ringMove d n new).shell = m.shell := by
  unfold Mach.ringMove
  simp only
  split <;> simp

@[simp] theorem Mach.ringMove_log (m : Mach) (d : SideId) (n new : Nat) : (m.ringMove d n new).log = m.log := by
  unfold Mach.ringMove
  simp only
  split <;> simp [Mach.put]

@[simp] theorem Mach.ringPost_shell (m : Mach) (d : SideId) (n : Nat) (mk : Nat → Out) : (m.ringPost d n mk).shell = m.shell := by
  simp [Mach.ringPost]

@[simp] theorem Mach.ringError_shell (m : Mach) (d : SideId) (n bit : Nat) : (m.ringError d n bit).shell = m.shell := by
  simp [Mach.ringError]

@[simp] theorem Mach.logRing_shell (m : Mach) (d : SideId) (e : LogEntry) (n : Nat) : (m.logRing d e n).shell = m.shell := by
  unfold Mach.logRing
  repeat' split
  all_goals simp

@[simp] theorem Mach.logRing_log (m : Mach) (d : SideId) (e : LogEntry) (n : Nat) : (m.logRing d e n).log = m.log := by
  unfold Mach.logRing
  repeat' split
  all_goals simp [Mach.put, Mach.ringPost]

/-- A register of BAR0 has no ring's offset. -/
theorem ringPage_ne {off : Nat} (n k : Nat) (h : off < bar4) : off ≠ ringPage n + k := by
  unfold ringPage
  omega

@[simp] theorem Mach.put_rd_ne (m : Mach) (d e : SideId) {off x : Nat} (lo len v : Nat) (h : x ≠ off) :
    (m.put d off lo len v).rd e x = m.rd e x := Mach.rd_wr_ne m d e _ h

/-- A ring's move changes no register of BAR0. -/
theorem Mach.ringMove_rd (m : Mach) (d e : SideId) (n new : Nat) {off : Nat} (h : off < bar4) :
    (m.ringMove d n new).rd e off = m.rd e off := by
  unfold Mach.ringMove
  have h1 : off ≠ bar4 + 0x40008 + 4 * (n / 32) := by omega
  have h2 := ringPage_ne (off := off) n (if ringToHost n then 0x14 else 0x10) h
  simp only
  split
  · rw [Mach.emit_rd, Mach.put_rd_ne _ _ _ _ _ _ h1, Mach.put_rd_ne _ _ _ _ _ _ h2]
  · rw [Mach.put_rd_ne _ _ _ _ _ _ h1, Mach.put_rd_ne _ _ _ _ _ _ h2]

theorem Mach.ringPost_rd (m : Mach) (d e : SideId) (n : Nat) (mk : Nat → Out) {off : Nat} (h : off < bar4) :
    (m.ringPost d n mk).rd e off = m.rd e off := by
  unfold Mach.ringPost
  rw [Mach.ringMove_rd _ _ _ _ _ h, Mach.emit_rd]

theorem Mach.logRing_rd (m : Mach) (d e : SideId) (x : LogEntry) (n : Nat) {off : Nat} (h : off < bar4) :
    (m.logRing d x n).rd e off = m.rd e off := by
  unfold Mach.logRing
  repeat' split
  · simp only
    rw [Mach.raiseOn_rd, Mach.put_rd_ne _ _ _ _ _ _ (ringPage_ne n 0x18 h)]
  · rw [Mach.raiseOn_rd, Mach.ringPost_rd _ _ _ _ _ h]
  · rfl

/-- A change on each side that keeps something keeps it. -/
theorem Mach.onSides_keeps {α : Type} (g : Mach → α) (p : Mach → SideId → Bool) (f : SideId → Mach → Mach)
    (hf : ∀ d t, g (f d t) = g t) (m : Mach) : g (m.onSides p f) = g m := by
  unfold Mach.onSides
  simp only
  repeat' split
  all_goals simp [hf]

theorem Mach.foldl_keeps {α β : Type} (g : Mach → α) (f : Mach → β → Mach) (hf : ∀ t b, g (f t b) = g t) (bs : List β) (m : Mach) :
    g (bs.foldl f m) = g m := by
  induction bs generalizing m with
  | nil => rfl
  | cons b bs ih => rw [List.foldl_cons, ih, hf]

/-- A log entry leaves everything but the log, registers of its rings, events and what leaves the module. -/
@[simp] theorem Mach.logFor_shell (m : Mach) (who : SideId) (unit inst code sev : Nat) (args : List Int) (cls : Nat) :
    (m.logFor who unit inst code sev args cls).shell = m.shell := by
  unfold Mach.logFor
  simp only
  rw [Mach.onSides_keeps Mach.shell _ _ (fun d t => Mach.foldl_keeps Mach.shell _ (fun t n => by simp) _ t)]
  rfl

@[simp] theorem Mach.logM_shell (m : Mach) (unit inst code sev : Nat) (args : List Int) (cls : Nat) :
    (m.logM unit inst code sev args cls).shell = m.shell := Mach.logFor_shell _ _ _ _ _ _ _ _

/-- A log entry changes no register of BAR0. -/
theorem Mach.logFor_rd (m : Mach) (who e : SideId) (unit inst code sev : Nat) (args : List Int) (cls : Nat) {off : Nat} (h : off < bar4) :
    (m.logFor who unit inst code sev args cls).rd e off = m.rd e off := by
  unfold Mach.logFor
  simp only
  rw [Mach.onSides_keeps (fun t => t.rd e off) _ _
    (fun d t => Mach.foldl_keeps (fun t => t.rd e off) _ (fun t n => Mach.logRing_rd t d e _ n h) _ t)]
  cases e <;> rfl

theorem Mach.logM_rd (m : Mach) (e : SideId) (unit inst code sev : Nat) (args : List Int) (cls : Nat) {off : Nat} (h : off < bar4) :
    (m.logM unit inst code sev args cls).rd e off = m.rd e off := Mach.logFor_rd _ _ _ _ _ _ _ _ _ h

/-- What a log entry holds (R201): it joins the log with the next sequence number. -/
@[simp] theorem Mach.logFor_log (m : Mach) (who : SideId) (unit inst code sev : Nat) (args : List Int) (cls : Nat) :
    (m.logFor who unit inst code sev args cls).log =
      { seq := m.logSeq, time := m.now, side := who, severity := sev, unit := unit, inst := inst, code := code, cls := cls
        args := args } :: m.log := by
  unfold Mach.logFor
  simp only
  rw [Mach.onSides_keeps Mach.log _ _ (fun d t => Mach.foldl_keeps Mach.log _ (fun t n => by simp) _ t)]

@[simp] theorem Mach.logM_log (m : Mach) (unit inst code sev : Nat) (args : List Int) (cls : Nat) :
    (m.logM unit inst code sev args cls).log =
      { seq := m.logSeq, time := m.now, side := m.token, severity := sev, unit := unit, inst := inst, code := code, cls := cls
        args := args } :: m.log := Mach.logFor_log _ _ _ _ _ _ _ _

/-- The module without its fault class instances. -/
def Mach.noFaults (m : Mach) : Mach := { m with faults := [] }

theorem Mach.faults_shell (m : Mach) (x : Tab FaultInst) : ({ m with faults := x } : Mach).shell.noFaults = m.shell.noFaults := rfl

/-- An occurrence of a fault class changes the class's instances and what events, log entries and registers change. -/
theorem Mach.countFault_shell (m : Mach) (cls side inst : Nat) :
    (m.countFault cls side inst).1.shell.noFaults = m.shell.noFaults := by
  unfold Mach.countFault
  simp only
  repeat' split
  all_goals simp only [Mach.logM_shell, Mach.raise_shell, Mach.faults_shell, Mach.addB_shell, Mach.wr_shell]

end Sys2Proof.Machine
end

