-- ==== Sys2Proof/Laws/Like.lean ====
section
/-!
SUPPORT. What events, log entries and rings leave as it was: they lose nothing that is pending or sent, and a module that only they
have changed is like the one before.
-/

namespace Sys2Proof.Machine

/-! ### Nothing pending or sent is lost -/

theorem Mach.Keeps.refl (m : Mach) : m.Keeps m := ⟨fun _ h => h, fun _ _ h => h⟩

theorem Mach.Keeps.trans {a b c : Mach} (h : a.Keeps b) (k : b.Keeps c) : a.Keeps c :=
  ⟨fun _ x => h.1 (k.1 x), fun d n x => h.2 d n (k.2 d n x)⟩

theorem Mach.Keeps.of_eq {t u : Mach} (ho : t.out = u.out) (hp : ∀ d, (t.side d).evt.pend = (u.side d).evt.pend) : t.Keeps u :=
  ⟨fun _ x => ho ▸ x, fun d n x => by rw [hp d]; exact x⟩

theorem Mach.emit_keeps (m : Mach) (o : Out) : (m.emit o).Keeps m :=
  ⟨fun _ x => List.mem_cons_of_mem _ x, fun d n x => by cases d <;> exact x⟩

/-- A side that is replaced by one with the same pending events. -/
theorem Mach.setSide_keeps (m : Mach) (d : SideId) (x : Side) (h : x.evt.pend = (m.side d).evt.pend) : (m.setSide d x).Keeps m := by
  refine .of_eq (by cases d <;> rfl) (fun e => ?_)
  by_cases he : e = d
  · subst he; simp [h]
  · simp [Mach.side_setSide_ne m x he]

theorem Mach.wr_keeps (m : Mach) (d : SideId) (off : Nat) (v : Word) : (m.wr d off v).Keeps m := by
  unfold Mach.wr
  split
  · exact .of_eq rfl (fun e => by cases e <;> rfl)
  · exact Mach.setSide_keeps m d _ rfl

theorem Mach.put_keeps (m : Mach) (d : SideId) (off lo len v : Nat) : (m.put d off lo len v).Keeps m := Mach.wr_keeps m d off _

theorem Mach.wrB_keeps (m : Mach) (off : Nat) (v : Word) : (m.wrB off v).Keeps m := by
  unfold Mach.wrB
  simp only
  split
  · exact (Mach.wr_keeps _ _ _ _).trans (Mach.wr_keeps _ _ _ _)
  · exact Mach.wr_keeps _ _ _ _

theorem Mach.putB_keeps (m : Mach) (off lo len v : Nat) : (m.putB off lo len v).Keeps m := by
  unfold Mach.putB
  simp only
  split
  · exact (Mach.put_keeps _ _ _ _ _ _).trans (Mach.put_keeps _ _ _ _ _ _)
  · exact Mach.put_keeps _ _ _ _ _ _

theorem Mach.fire_keeps (m : Mach) (d : SideId) (v : Nat) : (m.fire d v).Keeps m := by
  unfold Mach.fire
  simp only
  split
  · exact (Mach.emit_keeps _ _).trans (Mach.setSide_keeps m d _ rfl)
  · exact Mach.setSide_keeps m d _ rfl

theorem Mach.countVec_keeps (m : Mach) (d : SideId) (v : Nat) : (m.countVec d v).Keeps m := by
  unfold Mach.countVec
  simp only
  repeat' split
  all_goals first | exact Mach.fire_keeps m d v | exact Mach.setSide_keeps m d _ rfl

/-- An event only adds its own pending bit. -/
theorem Mach.raiseOn_keeps (m : Mach) (d : SideId) (n : Nat) : (m.raiseOn d n).Keeps m := by
  have h (e : Evt) (he : e.pend = (m.side d).evt.pend ||| BitVec.ofNat 128 (1 <<< n)) :
      (m.setSide d { m.side d with evt := e }).Keeps m := by
    refine ⟨by cases d <;> exact fun _ x => x, fun x k hk => ?_⟩
    by_cases hx : x = d
    · subst hx; simp [he, hk]
    · simp [Mach.side_setSide_ne m _ hx, hk]
  unfold Mach.raiseOn
  simp only
  repeat' split
  · exact .refl m
  · exact h _ rfl
  · exact (Mach.countVec_keeps _ _ _).trans (h _ rfl)

theorem Mach.raise_keeps (m : Mach) (n : Nat) : (m.raise n).Keeps m := (Mach.raiseOn_keeps _ _ _).trans (Mach.raiseOn_keeps _ _ _)

theorem Mach.ringMove_keeps (m : Mach) (d : SideId) (n new : Nat) : (m.ringMove d n new).Keeps m := by
  unfold Mach.ringMove
  simp only
  split
  · exact (Mach.emit_keeps _ _).trans ((Mach.put_keeps _ _ _ _ _ _).trans (Mach.put_keeps _ _ _ _ _ _))
  · exact (Mach.put_keeps _ _ _ _ _ _).trans (Mach.put_keeps _ _ _ _ _ _)

theorem Mach.ringPost_keeps (m : Mach) (d : SideId) (n : Nat) (mk : Nat → Out) : (m.ringPost d n mk).Keeps m :=
  (Mach.ringMove_keeps _ _ _ _).trans (Mach.emit_keeps _ _)

theorem Mach.logRing_keeps (m : Mach) (d : SideId) (e : LogEntry) (n : Nat) : (m.logRing d e n).Keeps m := by
  unfold Mach.logRing
  repeat' split
  · exact (Mach.raiseOn_keeps _ _ _).trans (Mach.put_keeps _ _ _ _ _ _)
  · exact (Mach.raiseOn_keeps _ _ _).trans (Mach.ringPost_keeps _ _ _ _)
  · exact .refl m

/-- What each step of a list of changes keeps, the whole keeps. -/
theorem Mach.foldl_keepsAll {α : Type} (f : Mach → α → Mach) (hf : ∀ t a, (f t a).Keeps t) (l : List α) (m : Mach) :
    (l.foldl f m).Keeps m := by
  induction l generalizing m with
  | nil => exact .refl m
  | cons a l ih => exact (ih (f m a)).trans (hf m a)

theorem Mach.onSides_keepsAll (p : Mach → SideId → Bool) (f : SideId → Mach → Mach) (hf : ∀ d t, (f d t).Keeps t) (m : Mach) :
    (m.onSides p f).Keeps m := by
  unfold Mach.onSides
  simp only
  repeat' split
  · exact (hf _ _).trans (hf _ _)
  · exact hf _ _
  · exact hf _ _
  · exact .refl m

theorem Mach.logFor_keeps (m : Mach) (who : SideId) (unit inst code sev : Nat) (args : List Int) (cls : Nat) :
    (m.logFor who unit inst code sev args cls).Keeps m := by
  unfold Mach.logFor
  simp only
  refine (Mach.onSides_keepsAll _ _ (fun d t => Mach.foldl_keepsAll _ (fun u n => Mach.logRing_keeps u d _ n) _ t) _).trans ?_
  exact .of_eq rfl (fun d => by cases d <;> rfl)

theorem Mach.logM_keeps (m : Mach) (unit inst code sev : Nat) (args : List Int) (cls : Nat) :
    (m.logM unit inst code sev args cls).Keeps m := Mach.logFor_keeps _ _ _ _ _ _ _ _

/-! ### Likeness -/

theorem Mach.Like.refl (m : Mach) : m.Like m := ⟨rfl, fun _ _ _ => rfl, .refl m⟩

theorem Mach.Like.trans {a b c : Mach} (h : a.Like b) (k : b.Like c) : a.Like c :=
  ⟨h.1.trans k.1, fun d off hb => (h.2.1 d off hb).trans (k.2.1 d off hb), h.2.2.trans k.2.2⟩

theorem Mach.raise_like (m : Mach) (n : Nat) : (m.raise n).Like m := ⟨m.raise_shell n, fun d off _ => m.raise_rd d n off, m.raise_keeps n⟩

theorem Mach.raiseOn_like (m : Mach) (d : SideId) (n : Nat) : (m.raiseOn d n).Like m :=
  ⟨m.raiseOn_shell d n, fun e off _ => m.raiseOn_rd d e n off, m.raiseOn_keeps d n⟩

theorem Mach.emit_like (m : Mach) (o : Out) : (m.emit o).Like m := ⟨rfl, fun d off _ => m.emit_rd o d off, m.emit_keeps o⟩

theorem Mach.logFor_like (m : Mach) (who : SideId) (unit inst code sev : Nat) (args : List Int) (cls : Nat) :
    (m.logFor who unit inst code sev args cls).Like m :=
  ⟨m.logFor_shell who unit inst code sev args cls, fun d _ h => m.logFor_rd who d unit inst code sev args cls h,
    m.logFor_keeps who unit inst code sev args cls⟩

theorem Mach.logM_like (m : Mach) (unit inst code sev : Nat) (args : List Int) (cls : Nat) :
    (m.logM unit inst code sev args cls).Like m := Mach.logFor_like _ _ _ _ _ _ _ _

/-- A module without registers and events shows its part and the states of its sides. -/
theorem Mach.part_of_shell {t u : Mach} (h : t.shell = u.shell) : t.part = u.part := by
  have := congrArg Mach.part h
  exact this

theorem Mach.token_of_shell {t u : Mach} (h : t.shell = u.shell) : t.token = u.token := by
  have := congrArg Mach.token h
  exact this

theorem Mach.st_of_shell {t u : Mach} (h : t.shell = u.shell) (d : SideId) : (t.side d).st = (u.side d).st := by
  have := congrArg (fun m : Mach => (m.side d).st) h
  cases d <;> exact this

theorem Mach.fitted_of_shell {t u : Mach} (h : t.shell = u.shell) (d : SideId) : t.fitted d = u.fitted d := by
  unfold Mach.fitted
  rw [Mach.part_of_shell h]

/-- An event of a side that runs is pending there once it is raised (R165, R171). -/
theorem Mach.raiseOn_sets (m : Mach) (d : SideId) (n : Nat) (hn : n < 128) (hp : eventAbsent m.part n = false)
    (hf : m.fitted d = true) (hs : (m.side d).st ≠ .down) : ((m.raiseOn d n).side d).evt.pend.getLsbD n = true := by
  rw [Mach.raiseOn_pend m d n hp hf hs]
  simp [BitVec.getLsbD_ofNat, hn, Nat.testBit_shiftLeft]

/-- An event is pending once it is raised (R171). -/
theorem Mach.raise_pending (m : Mach) (n : Nat) (hn : n < 128) (hp : eventAbsent m.part n = false) : (m.raise n).Pending n := by
  intro d hf hs
  rw [Mach.fitted_of_shell (m.raise_shell n)] at hf
  rw [Mach.st_of_shell (m.raise_shell n)] at hs
  cases d
  · exact (Mach.raiseOn_keeps _ _ _).2 _ _ (Mach.raiseOn_sets m .a n hn hp hf hs)
  · refine Mach.raiseOn_sets _ .b n hn ?_ ?_ ?_
    · rw [Mach.part_of_shell (m.raiseOn_shell .a n)]; exact hp
    · rw [Mach.fitted_of_shell (m.raiseOn_shell .a n)]; exact hf
    · rw [Mach.st_of_shell (m.raiseOn_shell .a n)]; exact hs

/-- An event that is pending stays pending in a module like it. -/
theorem Mach.Pending.like {t u : Mach} {n : Nat} (h : u.Pending n) (k : t.Like u) : t.Pending n := by
  intro d hf hs
  exact k.2.2.2 d n (h d (by rw [← Mach.fitted_of_shell k.1]; exact hf) (by rw [← Mach.st_of_shell k.1]; exact hs))

end Sys2Proof.Machine
end

