-- ==== Sys2Proof/Laws/Mail.lean ====
section
/-!
SUPPORT. What the mailbox operations can do: an accepted command is carried out, and a response changes only the tag store, the
commands in flight, and what its ring brings about.
-/

namespace Sys2Proof.Machine

/-- An accepted command is carried out on the module as it stands once the command has begun. -/
theorem Mach.runCmd_takes (m : Mach) (c : CmdDef) (msg : Msg) (plan : Mach → Plan) (h : m.takes c msg plan) :
    m.runCmd c msg plan = (m.begin_ c.opcode msg).carryOut c msg 0 (plan (m.begin_ c.opcode msg)) := by
  obtain ⟨h1, h2, h3, h4, h5⟩ := h
  have he : (m.begin_ c.opcode msg).eng = m.eng := by unfold Mach.begin_; split <;> rfl
  unfold Mach.runCmd
  simp only [h1, h2, h4, h3, he]
  cases hn : (plan (m.begin_ c.opcode msg)).need with
  | none => simp
  | some n =>
    have : (!n.free && engLive m.eng) = false := by
      rw [hn] at h5
      cases hf : n.free <;> simp_all
    simp [this]

/-- A command that begins only joins the commands in flight. -/
theorem Mach.begin_eq (m : Mach) (opcode : Nat) (msg : Msg) :
    m.begin_ opcode msg = { m with flights := (m.begin_ opcode msg).flights } := by
  unfold Mach.begin_; split <;> rfl

@[simp] theorem Mach.begin_token (m : Mach) (opcode : Nat) (msg : Msg) : (m.begin_ opcode msg).token = m.token := by
  rw [Mach.begin_eq]

@[simp] theorem Mach.begin_side (m : Mach) (opcode : Nat) (msg : Msg) (d : SideId) : (m.begin_ opcode msg).side d = m.side d := by
  rw [Mach.begin_eq]; cases d <;> rfl

@[simp] theorem Mach.begin_rd (m : Mach) (opcode : Nat) (msg : Msg) (d : SideId) (off : Nat) :
    (m.begin_ opcode msg).rd d off = m.rd d off := by
  rw [Mach.begin_eq]; cases d <;> rfl

@[simp] theorem Mach.begin_resultSide (m : Mach) (opcode : Nat) (c : CmdDef) (msg : Msg) :
    (m.begin_ opcode msg).resultSide c msg = m.resultSide c msg := by
  unfold Mach.resultSide; simp

/-- What handing a response over can do: nothing, an answer on the service bus or the management port, or entries in a ring with its
index and its event. -/
theorem Mach.deliver_cases (m : Mach) (side : SideId) (via : Via) (fl : Option Flight) (bytes : List Byte) :
    m.deliver side via fl bytes = m ∨ m.deliver side via fl bytes = m.emit (.i2cReply side bytes) ∨
      m.deliver side via fl bytes = m.emit (.udpReply side bytes) ∨
      ∃ (os : List Out) (r n e : Nat), m.deliver side via fl bytes = ((os.foldl Mach.emit m).ringMove side r n).raiseOn side e := by
  unfold Mach.deliver
  cases fl <;> cases via with
  | i2c => exact .inr (.inl rfl)
  | udp => exact .inr (.inr (.inl rfl))
  | ring n =>
    simp only
    split
    rotate_left
    · exact .inl rfl
    · refine .inr (.inr (.inr ⟨(chunks 64 4 bytes).zipIdx.map (fun p => Out.ringEntry side (respRing n)
        (m.ringAddr side (respRing n) (m.ringTail side (respRing n) + p.2)) p.1), respRing n,
        m.ringTail side (respRing n) + (chunks 64 4 bytes).length, if n = 60 then 51 else 48, ?_⟩))
      rw [List.foldl_map]

/-- Handing a response over leaves everything but registers of its ring, events and what leaves the module. -/
@[simp] theorem Mach.deliver_shell (m : Mach) (side : SideId) (via : Via) (fl : Option Flight) (bytes : List Byte) :
    (m.deliver side via fl bytes).shell = m.shell := by
  rcases m.deliver_cases side via fl bytes with h | h | h | ⟨os, r, n, e, h⟩ <;> rw [h]
  · rfl
  · rfl
  · rw [Mach.raiseOn_shell, Mach.ringMove_shell, Mach.foldl_keeps Mach.shell Mach.emit Mach.emit_shell]

/-- Handing a response over changes no register of BAR0. -/
theorem Mach.deliver_rd (m : Mach) (side e : SideId) (via : Via) (fl : Option Flight) (bytes : List Byte) {off : Nat} (h : off < bar4) :
    (m.deliver side via fl bytes).rd e off = m.rd e off := by
  rcases m.deliver_cases side via fl bytes with hd | hd | hd | ⟨os, r, n, v, hd⟩ <;> rw [hd]
  · exact Mach.emit_rd _ _ _ _
  · exact Mach.emit_rd _ _ _ _
  · rw [Mach.raiseOn_rd, Mach.ringMove_rd _ _ _ _ _ h, Mach.foldl_keeps (fun t : Mach => t.rd e off) _ (fun t o => Mach.emit_rd _ _ _ _)]

/-- Handing a response over makes no log entry. -/
@[simp] theorem Mach.deliver_log (m : Mach) (side : SideId) (via : Via) (fl : Option Flight) (bytes : List Byte) :
    (m.deliver side via fl bytes).log = m.log := by
  rcases m.deliver_cases side via fl bytes with h | h | h | ⟨os, r, n, e, h⟩ <;> rw [h]
  · rfl
  · rfl
  · rw [Mach.raiseOn_log, Mach.ringMove_log, Mach.foldl_keeps Mach.log Mach.emit Mach.emit_log]

/-- A response leaves everything but the tag store, the commands in flight, registers of its ring, events and what leaves the
module. -/
@[simp] theorem Mach.respond_shell (m : Mach) (opcode : Nat) (msg : Msg) (by_ : SideId) (extra status detail : Nat) (payload : List Byte) :
    (m.respond opcode msg by_ extra status detail payload).shell.noTags = m.shell.noTags := by
  unfold Mach.respond
  simp only
  split
  · rw [Mach.deliver_shell]
  · rw [Mach.deliver_shell]; rfl

theorem Mach.respond_rd (m : Mach) (e : SideId) (opcode : Nat) (msg : Msg) (by_ : SideId) (extra status detail : Nat)
    (payload : List Byte) {off : Nat} (h : off < bar4) : (m.respond opcode msg by_ extra status detail payload).rd e off = m.rd e off := by
  unfold Mach.respond
  simp only
  split
  · rw [Mach.deliver_rd _ _ _ _ _ _ h]
  · rw [Mach.deliver_rd _ _ _ _ _ _ h]; cases e <;> rfl

@[simp] theorem Mach.respond_log (m : Mach) (opcode : Nat) (msg : Msg) (by_ : SideId) (extra status detail : Nat) (payload : List Byte) :
    (m.respond opcode msg by_ extra status detail payload).log = m.log := by
  unfold Mach.respond
  simp only
  split <;> rw [Mach.deliver_log]

/-- A response that is stored becomes the newest record of the tag store (R178). -/
theorem Mach.respond_tags (m : Mach) (opcode : Nat) (msg : Msg) (by_ : SideId) (status detail : Nat) (payload : List Byte)
    (h : notStored status = false) : (m.respond opcode msg by_ 0 status detail payload).answers opcode msg by_ status detail payload := by
  unfold Mach.respond Mach.answers
  simp only [h, Bool.false_eq_true, if_false]
  have hd (t : Mach) (d : SideId) (v : Via) (f : Option Flight) (b : List Byte) : (t.deliver d v f b).tags = t.tags := by
    have := congrArg Mach.tags (Mach.deliver_shell t d v f b)
    exact this
  rw [hd]
  rfl

/-! ### What a served command can do -/

theorem Mach.AsIf.trans {a b c : Mach} (h : a.AsIf b) (k : b.AsIf c) : a.AsIf c :=
  ⟨h.1.trans k.1, fun d off hb => (h.2.1 d off hb).trans (k.2.1 d off hb), h.2.2.1.trans k.2.2.1, h.2.2.2.trans k.2.2.2⟩

theorem Mach.AsIf.token_eq {t u : Mach} (h : t.AsIf u) : t.token = u.token := by
  have := congrArg Mach.token h.1
  exact this

theorem Mach.AsIf.part_eq {t u : Mach} (h : t.AsIf u) : t.part = u.part := by
  have := congrArg Mach.part h.1
  exact this

/-- What has left the module and what is pending stay when a response is handed over. -/
theorem Mach.deliver_keeps (m : Mach) (side : SideId) (via : Via) (fl : Option Flight) (bytes : List Byte) :
    (m.deliver side via fl bytes).Keeps m := by
  rcases m.deliver_cases side via fl bytes with h | h | h | ⟨os, r, n, e, h⟩ <;> rw [h]
  · exact .refl m
  · exact m.emit_keeps _
  · exact m.emit_keeps _
  · exact (Mach.raiseOn_keeps _ _ _).trans ((Mach.ringMove_keeps _ _ _ _).trans (Mach.foldl_keepsAll _ Mach.emit_keeps os m))

/-- A response only answers. -/
theorem Mach.respond_asIf (m : Mach) (opcode : Nat) (msg : Msg) (by_ : SideId) (extra status detail : Nat) (payload : List Byte) :
    (m.respond opcode msg by_ extra status detail payload).AsIf m := by
  refine ⟨m.respond_shell opcode msg by_ extra status detail payload,
    fun d _ h => m.respond_rd d opcode msg by_ extra status detail payload h,
    m.respond_log opcode msg by_ extra status detail payload, ?_⟩
  unfold Mach.respond
  simp only
  split
  · exact Mach.deliver_keeps _ _ _ _ _
  · exact (Mach.deliver_keeps _ _ _ _ _).trans (.of_eq rfl (fun d => by cases d <;> rfl))

/-- Refusing a command leaves everything but the answer and the commands in flight as it was. -/
theorem Mach.refuse_asIf (m : Mach) (opcode : Nat) (msg : Msg) (by_ : SideId) (status detail : Nat) :
    (m.refuse opcode msg by_ status detail).AsIf m := by
  have h := Mach.respond_asIf m opcode msg by_ 0 status detail []
  have k : (m.refuse opcode msg by_ status detail).AsIf (m.respond opcode msg by_ 0 status detail []) :=
    ⟨rfl, fun d off _ => by cases d <;> rfl, rfl, .of_eq rfl fun d => by cases d <;> rfl⟩
  exact k.trans h

/-- A command that begins only begins. -/
theorem Mach.begin_asIf (m : Mach) (opcode : Nat) (msg : Msg) : (m.begin_ opcode msg).AsIf m := by
  rw [Mach.begin_eq]
  exact ⟨rfl, fun d off _ => by cases d <;> rfl, rfl, .of_eq rfl (fun d => by cases d <;> rfl)⟩

/-- A command is served when its row's meaning runs a plan that answers at once with ST_OK, and its act has the effect. -/
theorem served_of {i : Msg → Instr} {plan : Msg → Mach → Plan} {reply : Msg → Mach → List Byte} {effect : Msg → Mach → Mach → Prop}
    {pre : Msg → Mach → Prop} (c : CmdDef) (hrow : ∀ msg, mailRow (i msg) = some (c, msg))
    (hex : ∀ msg s, exec (i msg) s = onM (fun m => m.runCmd c msg (plan msg)) s)
    (h : ∀ msg m, pre msg m → m.refusal c msg (plan msg m) = none →
      (plan msg m).later = none ∧ (plan msg m).status = stOk ∧ (plan msg m).detail = 0 ∧ (plan msg m).reply = reply msg m ∧
        (plan msg m).after = id ∧ ((plan msg m).act m).token = m.token ∧ ((plan msg m).act m).part = m.part ∧
        ∀ t, t.AsIf ((plan msg m).act m) → effect msg m t) :
    Served i plan reply effect pre := by
  intro msg s c' hc ht hp
  rw [hrow] at hc
  obtain ⟨rfl, -⟩ := Prod.mk.inj (Option.some.inj hc)
  obtain ⟨h1, h2, h3, h4, h5, h6, h7, h8⟩ := h msg _ hp ht.2.2.2.1
  have hr := Mach.runCmd_takes s.tick c msg (plan msg) ht
  unfold Mach.carryOut at hr
  rw [h1] at hr
  simp only [h2, h3, h4, h5, id] at hr
  have hrs : (s.tick.begin_ c.opcode msg).resultSide c msg = s.m.resultSide c msg := by rw [Mach.begin_resultSide]; rfl
  rw [hrs] at hr
  have has := Mach.respond_asIf ((plan msg (s.tick.begin_ c.opcode msg)).act (s.tick.begin_ c.opcode msg)) c.opcode msg
    (s.m.resultSide c msg) 0 stOk 0 (reply msg (s.tick.begin_ c.opcode msg))
  have hb := Mach.begin_asIf s.tick c.opcode msg
  have ht' : (s.tick.runCmd c msg (plan msg)).token = s.m.token := by rw [hr, has.token_eq, h6, hb.token_eq]; rfl
  have hp' : (s.tick.runCmd c msg (plan msg)).part = s.m.part := by rw [hr, has.part_eq, h7, hb.part_eq]; rfl
  refine ⟨_, (hex msg s).trans (onM_keeps _ _ ht' hp'), ?_, ?_, rfl, rfl⟩
  · show Mach.answers (s.tick.runCmd c msg (plan msg)) _ _ _ _ _ _
    rw [hr]; exact Mach.respond_tags _ _ _ _ _ _ _ (by decide)
  · show effect _ _ (s.tick.runCmd c msg (plan msg))
    rw [hr]; exact h8 _ has

end Sys2Proof.Machine
end

