-- ==== Sys2Proof/Laws/Memory.lean ====
section
/-!
SUPPORT. The memory operations: reading a byte after writing one, and that every operation on image memory keeps its canonical
form.
-/

namespace Sys2Proof.Machine

/-! ### Bytes -/

/-- Reading the byte just written. -/
@[simp] theorem Image.get_put_self (x : Image) (a : Nat) (v : Byte) : (x.put a v).get a = v :=
  sparseGet_sparsePut_self x.cells a v

/-- A write of one byte leaves every other byte as it was. -/
theorem Image.get_put_ne (x : Image) {a b : Nat} (v : Byte) (h : b ≠ a) : (x.put a v).get b = x.get b :=
  sparseGet_sparsePut_ne x.cells v h

@[simp] theorem Image.setErrs_get (x : Image) (cw : Nat) (es : List (Nat × Byte)) (a : Nat) :
    (x.setErrs cw es).get a = x.get a := rfl

/-- Memories in canonical form whose bytes agree hold equal cells. -/
theorem Image.cells_ext {x y : Image} (hx : Memory.wf x = true) (hy : Memory.wf y = true) (h : ∀ a, x.get a = y.get a) :
    x.cells = y.cells := sparse_ext hx hy h

/-- A write of bytes leaves the bytes outside its range as they were. -/
theorem Image.get_write_out (bs : List Byte) (x : Image) (a b : Nat) (h : b < a ∨ a + bs.length ≤ b) :
    (x.write a bs).get b = x.get b := by
  induction bs generalizing x a with
  | nil => rfl
  | cons v vs ih =>
    simp only [List.length_cons] at h
    rw [Image.write, ih _ _ (by omega), Image.get_put_ne _ _ (by omega)]

/-! ### The canonical form -/

theorem Memory.wf_put {x : Image} (a : Nat) (v : Byte) (h : Memory.wf x = true) : Memory.wf (x.put a v) = true :=
  sparseWf_sparsePut a v h

@[simp] theorem Memory.wf_setErrs (x : Image) (cw : Nat) (es : List (Nat × Byte)) :
    Memory.wf (x.setErrs cw es) = Memory.wf x := rfl

theorem Memory.wf_write (bs : List Byte) {x : Image} (a : Nat) (h : Memory.wf x = true) : Memory.wf (x.write a bs) = true := by
  induction bs generalizing x a with
  | nil => exact h
  | cons v vs ih => exact ih (a + 1) (Memory.wf_put a v h)

theorem Memory.wf_clearSlice {x : Image} (i : Nat) (h : Memory.wf x = true) : Memory.wf (x.clearSlice i) = true :=
  sparseWf_filter _ h

/-- Reading the bytes just written. -/
theorem Image.get_write_in (bs : List Byte) (x : Image) (a i : Nat) (hi : i < bs.length) :
    (x.write a bs).get (a + i) = bs[i] := by
  induction bs generalizing x a i with
  | nil => simp at hi
  | cons v vs ih =>
    cases i with
    | zero =>
      rw [Image.write, Image.get_write_out _ _ _ _ (by omega)]
      exact Image.get_put_self x a v
    | succ i =>
      have := ih (x.put a v) (a + 1) i (by simpa using hi)
      rw [Image.write]
      simpa [Nat.add_assoc, Nat.add_comm 1 i] using this

theorem Images.wf_iff {g : Images} : g.wf = true ↔ ∀ d, Memory.wf (g.side d) = true := by
  constructor
  · intro h d
    have h := Bool.and_eq_true_iff.1 h
    cases d
    · exact h.1
    · exact h.2
  · intro h
    exact Bool.and_eq_true_iff.2 ⟨h .a, h .b⟩

@[simp] theorem Images.side_setSide_self (g : Images) (d : SideId) (x : Image) : (g.setSide d x).side d = x := by cases d <;> rfl

theorem Images.side_setSide_ne (g : Images) {d e : SideId} (x : Image) (h : e ≠ d) : (g.setSide d x).side e = g.side e := by
  cases d <;> cases e <;> first | rfl | exact absurd rfl h

theorem Images.wf_setSide {g : Images} (d : SideId) {x : Image} (hg : g.wf = true) (hx : Memory.wf x = true) :
    (g.setSide d x).wf = true := by
  rw [Images.wf_iff] at hg ⊢
  intro e
  by_cases h : e = d
  · subst h; simpa using hx
  · rw [Images.side_setSide_ne g x h]; exact hg e

theorem Images.wf_side {g : Images} (d : SideId) (hg : g.wf = true) : Memory.wf (g.side d) = true := Images.wf_iff.1 hg d

theorem Images.wf_clearSlice {g : Images} (d : SideId) (i : Nat) (hg : g.wf = true) : (g.clearSlice d i).wf = true := by
  have := Images.wf_setSide d hg (Memory.wf_clearSlice i (Images.wf_side d hg))
  cases d <;> exact this

/-- A read of a codeword writes at most its correction back. -/
theorem readCw_wf (d : SideId) (cw src inst : Nat) (raw : List (Nat × Byte)) (x : Mem) (h : x.1.wf = true) :
    (readCw d cw src inst raw x).1.1.wf = true := by
  have hx := Images.wf_side d h
  unfold readCw
  simp only
  split
  · exact Images.wf_setSide d h (by simpa using hx)
  · split
    · exact Images.wf_setSide d h (by simpa using hx)
    · exact Images.wf_setSide d h (by simpa using hx)
    · exact Images.wf_setSide d h (by simpa using Memory.wf_write _ _ hx)

theorem writeCw_wf (d : SideId) (cw lo inst : Nat) (bs : List Byte) (raw : List (Nat × Byte)) (x : Mem) (h : x.1.wf = true) :
    (writeCw d cw lo inst bs raw x).1.wf = true := by
  unfold writeCw
  split
  · exact Images.wf_setSide d h (by simpa using Memory.wf_write _ _ (Images.wf_side d h))
  · have hr := readCw_wf d cw 6 inst raw x h
    split
    · rename_i y hy
      rw [hy] at hr
      exact hr
    · rename_i y old hy
      rw [hy] at hr
      exact Images.wf_setSide d hr (by simpa using Memory.wf_write _ _ (Images.wf_side d hr))

/-- A fold of steps that keep the form keeps it. -/
theorem foldl_wf {β γ : Type} (f : β → γ → β) (img : β → Images) (hf : ∀ b c, (img b).wf = true → (img (f b c)).wf = true)
    (cs : List γ) (b : β) (h : (img b).wf = true) : (img (cs.foldl f b)).wf = true := by
  induction cs generalizing b with
  | nil => exact h
  | cons c cs ih => exact ih (f b c) (hf b c h)

theorem readStep_wf (d : SideId) (src inst : Nat) (stop : Bool) (errs : SymErrs) (r : Mem × ReadOut) (p : Nat × Nat × Nat)
    (h : r.1.1.wf = true) : (readStep d src inst stop errs r p).1.1.wf = true := by
  unfold readStep
  split
  · exact h
  · split
    · exact h
    · have hr := readCw_wf d p.1 src inst (errsAt errs p.1) r.1 h
      split <;> (rename_i hy; rw [hy] at hr; exact hr)

/-- A read of a range keeps the form. -/
theorem memRead_wf (d : SideId) (a len src inst : Nat) (stop : Bool) (errs : SymErrs) (x : Mem) (h : x.1.wf = true) :
    (memRead d a len src inst stop errs x).1.1.wf = true := by
  unfold memRead
  generalize cutCw (len + 1) a len = cs
  exact foldl_wf (readStep d src inst stop errs) (fun r : Mem × ReadOut => r.1.1) (readStep_wf d src inst stop errs) cs _ h

theorem writeStep_eq (d : SideId) (inst : Nat) (errs : SymErrs) (r : Mem × List Byte) (p : Nat × Nat × Nat) :
    writeStep d inst errs r p =
      if r.1.2.sliceReady d (64 * p.1) then
        (writeCw d p.1 p.2.1 inst (r.2.take p.2.2) (errsAt errs p.1) r.1, r.2.drop p.2.2)
      else (r.1, r.2.drop p.2.2) := rfl

theorem writeStep_wf (d : SideId) (inst : Nat) (errs : SymErrs) (r : Mem × List Byte) (p : Nat × Nat × Nat)
    (h : r.1.1.wf = true) : (writeStep d inst errs r p).1.1.wf = true := by
  have hw := writeCw_wf d p.1 p.2.1 inst (r.2.take p.2.2) (errsAt errs p.1) r.1 h
  rw [writeStep_eq]
  cases r.1.2.sliceReady d (64 * p.1)
  · rw [if_neg (by simp)]; exact h
  · rw [if_pos rfl]; exact hw

/-- A write of a range keeps the form. -/
theorem memWrite_wf (d : SideId) (a inst : Nat) (bs : List Byte) (errs : SymErrs) (x : Mem) (h : x.1.wf = true) :
    (memWrite d a inst bs errs x).1.wf = true := by
  unfold memWrite
  generalize cutCw (bs.length + 1) a bs.length = cs
  exact foldl_wf (writeStep d inst errs) (fun r : Mem × List Byte => r.1.1) (writeStep_wf d inst errs) cs (x, bs) h

theorem memWriteBoth_wf (d : SideId) (a inst : Nat) (bs : List Byte) (errs partnerErrs : SymErrs) (x : Mem) (h : x.1.wf = true) :
    (memWriteBoth d a inst bs errs partnerErrs x).1.wf = true := by
  unfold memWriteBoth
  have h1 := memWrite_wf d a inst bs errs x h
  simp only
  split
  · exact memWrite_wf _ _ _ _ _ _ h1
  · exact h1

theorem writeSides_wf (a : Nat) (onA onB : List Byte) (x : Mem) (h : x.1.wf = true) : (writeSides a onA onB x).1.wf = true := by
  unfold writeSides
  have h1 : (if x.2.inService .a then memWrite .a a 0xFF onA [] x else x).1.wf = true := by
    split
    · exact memWrite_wf _ _ _ _ _ _ h
    · exact h
  simp only
  split
  · exact memWrite_wf _ _ _ _ _ _ h1
  · exact h1

theorem foldl_put_wf (cs : List Host.Cell) (k : Image) (h : Memory.wf k = true) :
    Memory.wf (cs.foldl (fun x c => x.put c.1 c.2) k) = true := by
  induction cs generalizing k with
  | nil => exact h
  | cons c cs ih => exact ih _ (Memory.wf_put c.1 c.2 h)

/-- The copy of allocated units to a joining side keeps the form. -/
theorem copyImage_wf (m : Mach) (src dst : Image) (h : Memory.wf dst = true) : Memory.wf (m.copyImage src dst) = true :=
  foldl_put_wf _ _ (sparseWf_filter _ h)

theorem dmaDrain_wf (d : SideId) (n : Nat) (errs : SymErrs) (fuel : Nat) (x : Mem) (h : x.1.wf = true) :
    (dmaDrain d n errs fuel x).1.wf = true := by
  induction fuel generalizing x with
  | zero => exact h
  | succ fuel ih =>
    unfold dmaDrain
    simp only
    split
    · exact h
    · split
      · exact h
      · apply ih
        split
        · exact h
        · split
          · exact memWriteBoth_wf _ _ _ _ _ _ _ h
          · exact h

/-- The reads of a MOVE keep the form. -/
theorem dmaRead_wf (d : SideId) (n : Nat) (srcErrs : SymErrs) (fuel : Nat) (x : Mem) (h : x.1.wf = true) :
    (dmaRead d n srcErrs fuel x).1.wf = true := by
  induction fuel generalizing x with
  | zero => exact h
  | succ fuel ih =>
    unfold dmaRead
    simp only
    split
    · exact h
    · split
      · exact h
      · split
        · exact h
        · exact ih _ (memRead_wf _ _ _ _ _ _ _ _ h)

/-- The reads and writes of a MOVE in turn keep the form. -/
theorem dmaPump_wf (d : SideId) (n : Nat) (errs srcErrs : SymErrs) (fuel : Nat) (x : Mem) (h : x.1.wf = true) :
    (dmaPump d n errs srcErrs fuel x).1.wf = true := by
  induction fuel generalizing x with
  | zero => exact h
  | succ fuel ih =>
    have hy := dmaRead_wf d n srcErrs 17 x h
    unfold dmaPump
    simp only
    split
    · exact dmaDrain_wf _ _ _ _ _ hy
    · exact ih _ (dmaDrain_wf _ _ _ _ _ hy)

/-- A MOVE that advances keeps the form. -/
theorem dmaAdvance_wf (d : SideId) (n : Nat) (errs srcErrs : SymErrs) (x : Mem) (h : x.1.wf = true) :
    (dmaAdvance d n errs srcErrs x).1.wf = true := by
  have h1 := dmaPump_wf d n errs srcErrs (((((x.2.side d).dmaOf n).move.map DmaMove.length).getD 0) / moveWindow + 2) x h
  unfold dmaAdvance
  simp only
  generalize dmaPump d n errs srcErrs (((((x.2.side d).dmaOf n).move.map DmaMove.length).getD 0) / moveWindow + 2) x = y at h1 ⊢
  repeat' split
  all_goals exact h1

theorem dmaDisable_wf (d : SideId) (ch : Nat) (x : Mem) (h : x.1.wf = true) : (dmaDisable d ch x).1.wf = true := by
  unfold dmaDisable
  simp only
  split
  · exact h
  · split
    · split
      · exact memWriteBoth_wf _ _ _ _ _ _ _ h
      · exact h
    · exact h

/-- Fetching an instruction keeps the form. -/
theorem dmaFetch_wf (d : SideId) (n : Nat) (raw : List Byte) (x : Mem) (h : x.1.wf = true) : (dmaFetch d n raw x).1.1.wf = true := by
  unfold dmaFetch
  simp only
  split
  · exact h
  · split
    · exact h
    · split <;> exact memRead_wf _ _ _ _ _ _ _ _ h

/-- A DMA instruction keeps the form when its effect does. -/
theorem dmaInstr_wf (d : SideId) (n opcode : Nat) (raw : List Byte) (ok : List Byte → Bool) (act : List Byte → Mem → Mem)
    (ha : ∀ bs y, y.1.wf = true → (act bs y).1.wf = true) (x : Mem) (h : x.1.wf = true) :
    (dmaInstr d n opcode raw ok act x).1.wf = true := by
  have hr := dmaFetch_wf d n raw x h
  unfold dmaInstr
  simp only
  split
  · exact h
  · split
    · exact hr
    · split
      · exact ha _ _ hr
      · split <;> exact hr

end Sys2Proof.Machine
end

