-- ==== Sys2Proof/WellFormed.lean ====
section
/-!
DEFINITION. Which commands are well formed: every operand in the range that the spec gives its unit (R2, R13, R16, R142, R174). A part may
have fewer instances than the range; what a command on an absent instance does is the machine's to say (R8).
-/

namespace Sys2Proof

/-- The rings that take commands (R142): rings 0 to 7, and ring 60 of the management port's side. -/
def Via.wf : Via → Bool
  | .ring n => decide (n < 8) || n == 60
  | .i2c => true
  | .udp => true

/-- A message's header fields fit their widths (R174) and it came over a transport that carries commands. -/
def Msg.wf (m : Msg) : Bool :=
  m.via.wf && decide (m.tag < 2 ^ 32) && decide (m.flags < 256) && decide (m.affinity < 256) && decide (m.payload.length < 65536)

/-- Every operand is in range. -/
def Instr.wf : Instr → Bool
  | .feedChange feed _ _ => decide (feed < 2)
  | .powerGood => true
  | .otpReadDone _ => true
  | .knownAnswerTestsDone _ _ => true
  | .endpointReady _ => true
  | .fwBankVerified _ _ => true
  | .dramTrained _ => true
  | .sliceInitialised _ slice => decide (slice < 16)
  | .appReady _ => true
  | .reducedService _ => true
  | .adcSelfCalDone _ _ => true
  | .pxcReady _ => true
  | .engineReady _ => true
  | .tokenToSideB => true
  | .ligatureTrained lanes _ => decide (lanes ≤ 16)
  | .strapChanged _ => true
  | .inputLow _ => true
  | .collapse => true
  | .holdoffEnd => true
  | .alwaysOnLost => true
  | .pbShortPress => true
  | .pbGraceEnd => true
  | .pbLongPress => true
  | .mrAssert => true
  | .mrRelease => true
  | .droneWatchdog _ => true
  | .goUp _ => true
  | .goDown _ => true
  | .railInWindow => true
  | .stepEnd => true
  | .riseTimeout rail _ => decide (rail < 24)
  | .railDischarged => true
  | .dischargeTimeout rail _ => decide (rail < 24)
  | .railFault rail _ _ => decide (rail < 24)
  | .railWarn rail _ _ => decide (rail < 24)
  | .headAbsent station => decide (station < 6)
  | .pulseHost _ => true
  | .pulseHead _ => true
  | .resetStretchEnd _ => true
  | .heartbeatSend => true
  | .heartbeat _ _ _ _ => true
  | .status src _ _ _ _ _ => decide (src < 16)
  | .pollUnanswered => true
  | .restart _ => true
  | .badFrame _ => true
  | .masterLost => true
  | .linkReset _ _ => true
  | .d3hotEntry _ => true
  | .d0Return _ => true
  | .aspmL1Entry _ => true
  | .bar2Read _ _ _ _ => true
  | .bar2Write _ _ _ _ _ => true
  | .highWordLatch _ _ => true
  | .srecDataRead _ => true
  | .registerWrite _ _ _ words => words.all (fun w => decide (w.1 < 16))
  | .msixUnmask _ vector => decide (vector < 32)
  | .ringDb _ ring _ => decide (ring < 64)
  | .ringEnable _ ring => decide (ring < 64)
  | .ringDisable _ ring => decide (ring < 64)
  | .messageFetch _ ring _ => decide (ring < 64)
  | .fetchError _ access => decide (access.ring < 64)
  | .forwardedMessage _ ring _ => decide (ring < 64)
  | .evtSet _ k _ => decide (k < 4)
  | .evtMaskClear _ k _ => decide (k < 4)
  | .vectorTimer _ v => decide (v < 32)
  | .snapshotTick _ => true
  | .svcI2cTransaction addr _ => decide (addr < 128)
  | .mgmtDatagram _ _ => true
  | .sysIdentify m => m.wf
  | .sysStatus m => m.wf
  | .sysEcho m => m.wf
  | .sysCancel m => m.wf
  | .sysClearFault m => m.wf
  | .sysRestart m => m.wf
  | .sysSetTime m => m.wf
  | .sysListDeferred m => m.wf
  | .deferredCommandRun => true
  | .railConfig m => m.wf
  | .seqProgram m => m.wf
  | .seqUp m => m.wf
  | .seqDown m => m.wf
  | .seqRead m => m.wf
  | .seqPersist m => m.wf
  | .resetPulse m => m.wf
  | .pwrTimers m => m.wf
  | .perfCap m => m.wf
  | .jobDefine m => m.wf
  | .jobArm m => m.wf
  | .jobEnd m => m.wf
  | .jobAbort m => m.wf
  | .pageQueue m => m.wf
  | .pageWithdraw m => m.wf
  | .jobRead m => m.wf
  | .jobDelete m => m.wf
  | .memAlloc m => m.wf
  | .memFree m => m.wf
  | .planeDefine m => m.wf
  | .planeEncode m => m.wf
  | .planeEncodeDone _ _ => true
  | .planeDelete m => m.wf
  | .memReadStat m => m.wf
  | .tplLoad m => m.wf
  | .tplDelete m => m.wf
  | .glyphLoad m => m.wf
  | .counterSet m => m.wf
  | .counterRead m => m.wf
  | .lotSet m => m.wf
  | .feedSubmit m => m.wf
  | .encConfig m => m.wf
  | .stationOffset m => m.wf
  | .cmpLoad m => m.wf
  | .cmpStop m => m.wf
  | .capConfig m => m.wf
  | .rejConfig m => m.wf
  | .ltkRead m => m.wf
  | .motorConfig m => m.wf
  | .motorSpeed m => m.wf
  | .motorStop m => m.wf
  | .stpConfig m => m.wf
  | .stpMove m => m.wf
  | .stpGear m => m.wf
  | .motionRead m => m.wf
  | .loopLoad m => m.wf
  | .loopSetpoint m => m.wf
  | .hvSet m => m.wf
  | .hvEnable m => m.wf
  | .fuserSet m => m.wf
  | .fuserEnable m => m.wf
  | .processRead m => m.wf
  | .calRun m => m.wf
  | .calRunDone _ _ => true
  | .calSpareStep _ group => decide (group < 16)
  | .calUserRead m => m.wf
  | .calUserWrite m => m.wf
  | .calSave m _ => m.wf
  | .calStatus m => m.wf
  | .selfTest m _ => m.wf
  | .ligRead m => m.wf
  | .handover m => m.wf
  | .faultClassSet m => m.wf
  | .faultClassRead m => m.wf
  | .secAuth m => m.wf
  | .secChallenge m => m.wf
  | .secCsr m => m.wf
  | .secCertLoad m => m.wf
  | .secPubkeyRead m => m.wf
  | .secTokenRead m => m.wf
  | .secZeroise m => m.wf
  | .secSelfTest m _ => m.wf
  | .logFilter m => m.wf
  | .logCopy m => m.wf
  | .diagStream m => m.wf
  | .shutdownRead m => m.wf
  | .shutdownAck m => m.wf
  | .fwBegin m => m.wf
  | .fwData m => m.wf
  | .fwVerify m => m.wf
  | .fwActivate m => m.wf
  | .fwReadStat m => m.wf
  | .encCount ch _ _ _ => decide (ch < 4)
  | .indexPulse ch => decide (ch < 4)
  | .encLos ch => decide (ch < 4)
  | .ltkTick speeds inputs => speeds.length == 4 && inputs.ipos.length == 4
  | .captureEdge input _ => decide (input < 16)
  | .captureFilterEnd input _ => decide (input < 16)
  | .capPop _ input => decide (input < 16)
  | .rejectPulseEnd output => decide (output < 8)
  | .rejectOverload output => decide (output < 8)
  | .rejectRetry output => decide (output < 8)
  | .sosValid station _ _ => decide (station < 6)
  | .sosMissed station => decide (station < 6)
  | .eos station _ => decide (station < 6)
  | .ledPlaneLatch station plane => decide (station < 6) && decide (plane < 4)
  | .beamFault station beam _ => decide (station < 6) && decide (beam < 34)
  | .laserInterlock _ => true
  | .hvLoopOpen _ => true
  | .interlockLockout _ => true
  | .decoderLineDone station _ => decide (station < 6)
  | .decoderPageBoundary station => decide (station < 6)
  | .decoderPageBegin station => decide (station < 6)
  | .feedSeekFound station => decide (station < 6)
  | .scrubRead _ _ => true
  | .imcErrPop _ => true
  | .dmaEnable _ ch _ => decide (ch < 32)
  | .dmaJobFetch _ ch entry => decide (ch < 32) && entry.length == 64
  | .dmaNop _ ch raw => decide (ch < 32) && raw.length == 32
  | .dmaMove _ ch raw _ => decide (ch < 32) && raw.length == 32
  | .dmaMoveComplete _ ch => decide (ch < 32)
  | .dmaFeedSpace _ ch => decide (ch < 32)
  | .dmaLoop _ ch raw => decide (ch < 32) && raw.length == 32
  | .dmaWait _ ch raw => decide (ch < 32) && raw.length == 32
  | .dmaWaitDone _ ch => decide (ch < 32)
  | .dmaPaceTimer _ ch => decide (ch < 32)
  | .dmaSignal _ ch raw => decide (ch < 32) && raw.length == 32
  | .dmaJump _ ch raw => decide (ch < 32) && raw.length == 32
  | .dmaEnd _ ch raw => decide (ch < 32) && raw.length == 32
  | .dmaBusTimeout _ ch _ => decide (ch < 32)
  | .dmaHostError _ ch _ => decide (ch < 32)
  | .dmaDisable _ ch => decide (ch < 32)
  | .dmaResume _ ch => decide (ch < 32)
  | .panelComposeStart => true
  | .panelReady _ => true
  | .checkpointTimer => true
  | .checkpointSigned => true
  | .checkpointLate => true
  | .motorTick ch _ => decide (ch < 14)
  | .motorOvercurrent ch => decide (ch < 14)
  | .tripRetry ch => decide (ch < 14)
  | .speedRampTick ch => decide (ch < 14)
  | .polyStartStep ch => decide (ch < 14)
  | .bemfZeroCrossing ch _ _ => decide (ch < 14)
  | .catchSpinTimeout ch => decide (ch < 14)
  | .bissFrame ch _ => decide (ch < 14)
  | .bissRetry ch => decide (ch < 14)
  | .lockedRotor ch => decide (ch < 14)
  | .speedDev ch _ => decide (ch < 14)
  | .busStage _ _ => true
  | .chopperFault _ => true
  | .stepIntervalEnd ch _ => decide (ch < 12)
  | .homeEdge ch => decide (ch < 12)
  | .stpBridgeFault ch _ => decide (ch < 12)
  | .holdDelayEnd ch => decide (ch < 12)
  | .gearTick ch => decide (ch < 12)
  | .loopSample loop _ _ => decide (loop < 256)
  | .loopStateSync => true
  | .densityRead station _ => decide (station < 6)
  | .hvLimiting output => decide (output < 26)
  | .hvTrip output => decide (output < 26)
  | .hvRestart output => decide (output < 26)
  | .hvArc output => decide (output < 26)
  | .fuserZeroCrossing line _ _ _ => decide (line < 2)
  | .zcLost line => decide (line < 2)
  | .fuserTempSample temps => temps.length == 8
  | .sensorDisagree ch => decide (ch < 4)
  | .fuserOvercurrent ch => decide (ch < 4)
  | .cutoutOpen loop => decide (loop < 2)
  | .powerTimerExpiry _ => true
  | .powerStateReached => true
  | .wake _ => true
  | .mgmtWakeFrame _ _ => true
  | .perfTransitionDone => true
  | .housekeepingSample _ k _ => decide (k < 128)
  | .floorTimer => true
  | .shutHoldEnd => true
  | .thermalRestart => true
  | .ligFrame _ lanes => decide (lanes ≤ 16)
  | .signatureRecord station _ _ _ _ _ => decide (station < 6)
  | .signatureTimeout station _ => decide (station < 6)
  | .stationCheckpoint station _ => decide (station < 6)
  | .decisionTimeout => true
  | .sideFault _ _ => true
  | .appWatchdogExpiry _ => true
  | .arbiterDetect _ => true
  | .tokenMove _ => true
  | .forceDark stations => stations.all (fun s => decide (s < 6))
  | .expDeadline _ => true
  | .sideLeave => true
  | .ligatureDown => true
  | .joinUnitCopied => true
  | .faultClassDrain cls side _ => decide (1 ≤ cls ∧ cls ≤ 24) && decide (side ≤ 2)
  | .tamper _ _ => true
  | .tokenAuthTimer => true
  | .tokenPoll _ => true
  | .tokenAnswer _ _ => true
  | .coRoleTimeout => true
  | .challengeExpiry => true
  | .authLockEnd => true
  | .interlockLoopClosed _ _ _ => true
  | .cutoutLoopClosed loop => decide (loop < 2)
  | .pcieLinkTrained _ _ _ => true
  | .handoverTimeout => true
  | .tokenBusError _ => true
  | .hvLimitingEnd output => decide (output < 26)
  | .brakeLimited _ => true
  | .dmaReadCompletion _ ch _ _ => decide (ch < 32)
  | .sleepExitDone => true

end Sys2Proof
end

