-- ==== Sys2Proof/Tests/Slice0.lean ====
section
/-!
SUPPORT. Tests: ill-formed commands are refused, single commands do what the spec says on small states, and for every statement with
hypotheses a concrete state and operands that meet them.
-/

namespace Sys2Proof.Tests

open Sys2Proof Sys2Proof.Machine

set_option maxRecDepth 100000
set_option Elab.async false

/-! ### Small states -/

/-- A side that has started: every slice ready, ENGINE_READY, PXC_READY, ADC_READY, MEM_READY, MBOX_READY, APP_READY and FW_OK set. -/
def tSide (st : SideState) : Side :=
  { Side.init with st := st, step := 13, endpoint := true, linkUp := true, alive := true, regs := [(0x10000, 0x9F80FFFF)] }

/-- A module of a part that runs on side A alone, changed by `f`. -/
def tOn (p : Part) (f : Mach → Mach) : State :=
  { State.resetFor p with
    m := f { Mach.init p with a := tSide .alone, safe := true, power := { Power.init with phase := .running, inputGood := true, alwaysOn := true } } }

/-- A W9-D that runs on side A alone, changed by `f`. -/
def tS (f : Mach → Mach) : State := tOn .w9d f

/-- A new command on command ring 0 of side A. -/
def tMsg (payload : List Byte) : Msg :=
  { side := .a, via := .ring 0, tag := 7, flags := 0, affinity := 0, payload := payload, buf := none }

/-- The same with a host buffer. -/
def tBuf (payload bs : List Byte) : Msg := { tMsg payload with buf := some bs }

/-- Every test of a list holds. -/
def ok (l : List Bool) : Bool := l.all id

/-- Little-endian words. -/
def ws (xs : List Nat) : List Byte := xs.flatMap (leBytes 4)

/-- Whether a command meets the hypotheses of `Served` and `Started` in a state. -/
def meets (i : Msg → Instr) (plan : Msg → Mach → Plan) (msg : Msg) (s : State) (pre : Mach → Bool := fun _ => true) : Bool :=
  match mailRow (i msg) with
  | none => false
  | some (c, x) => decide (x = msg) && decide (s.tick.takes c msg (plan msg)) && pre (s.tick.begin_ c.opcode msg)

/-- What `meets` says is the hypotheses themselves. -/
theorem meets_sound {i : Msg → Instr} {plan : Msg → Mach → Plan} {msg : Msg} {s : State} {pre : Mach → Bool}
    (h : meets i plan msg s pre = true) :
    ∃ c, mailRow (i msg) = some (c, msg) ∧ s.tick.takes c msg (plan msg) ∧ pre (s.tick.begin_ c.opcode msg) = true := by
  unfold meets at h
  split at h
  · cases h
  · rename_i c x hx
    simp only [Bool.and_eq_true, decide_eq_true_eq] at h
    obtain ⟨⟨rfl, ht⟩, hp⟩ := h
    exact ⟨c, hx, ht, hp⟩

/-- A module that can exchange pages: rails ON, both loops closed, nothing inhibited. -/
def tReady (m : Mach) : Mach :=
  { m.wr .a 0x40004 0x20000000 with ilk := { m.ilk with laserA := true, laserB := true, hvA := true, hvB := true } }

/-- A job of LED station 0. -/
def tJob : Job := newJob (ws [1, 0x30010101, 1000, 0] ++ ws [3, 0, 0, 0, 0, 0] ++ ws [0, 0])

/-- A page of job 1 in flight, not committed. -/
def tPage : Page :=
  { job := 1, pageNo := 1, pageSeq := 1, compare := 0, pos := 0, time := 0, length := 1000, stations := 1, planes := [0, 0, 0, 0, 0, 0]
    tplSet := 0, layout := 0, committed := false, skipped := false, lots := [], prog := [], panels := [] }

/-- Job 1 armed, with a page in flight where `on` is set. -/
def tArmed (eng : EngState) (on : Bool) (m : Mach) : Mach :=
  { tReady m with eng := eng, armed := 1, jobs := [(1, tJob)], pages := if on then [(1, tPage)] else [] }

/-- The line is at rest, as a test. -/
def lineIdleB (m : Mach) : Bool :=
  !engLive m.eng && (List.range 16).all (fun u => !m.cmpArmed u) && m.rejs.isEmpty && m.drv.steps.isEmpty

theorem lineIdle_of {m : Mach} (h : lineIdleB m = true) : m.lineIdle := by
  simp only [lineIdleB, Bool.and_eq_true, Bool.not_eq_true', List.all_eq_true, List.mem_range, List.isEmpty_iff] at h
  obtain ⟨⟨⟨h1, h2⟩, h3⟩, h4⟩ := h
  refine ⟨h1, h2, fun j => ?_, fun e he => ?_⟩
  · have : m.rejOf j = RejState.init := by unfold Mach.rejOf; rw [h3]; rfl
    rw [this]; exact ⟨rfl, rfl⟩
  · rw [h4] at he; cases he

/-- Image memory is sound at a side, as a test. -/
def soundB (s : State) (d : SideId) : Bool :=
  (List.range (slicesOf s.m.part)).all (s.m.mgt d) && (s.m.side d).imc.retired.isEmpty && (s.img.side d).errs.isEmpty

theorem sound_of {s : State} {d : SideId} (h : soundB s d = true) : s.sound d := by
  simp only [soundB, Bool.and_eq_true, List.all_eq_true, List.mem_range, List.isEmpty_iff] at h
  exact ⟨h.1.1, h.1.2, h.2⟩

/-! ### Ill-formed commands are refused -/

theorem test_ill_formed_msg :
    ok [(tMsg []).wf, !{ tMsg [] with via := .ring 8 }.wf, { tMsg [] with via := .ring 60 }.wf, !{ tMsg [] with tag := 2 ^ 32 }.wf,
     !{ tMsg [] with flags := 256 }.wf, !{ tMsg [] with affinity := 256 }.wf, !(tMsg (List.replicate 65536 0)).wf] = true := by decide +kernel

theorem test_message_commands_wf (i : Instr) (c : CmdDef) (m : Msg) (h : mailRow i = some (c, m)) : i.wf = m.wf := by
  cases i <;> cases h <;> simp only [Instr.wf]

theorem test_ill_formed_1 :
    (∀ x1 x2, (Instr.feedChange 2 x1 x2).wf = false) ∧
    (∀ x0, (Instr.sliceInitialised x0 16).wf = false) ∧
    (∀ x1, (Instr.ligatureTrained 17 x1).wf = false) ∧
    (∀ x1, (Instr.riseTimeout 24 x1).wf = false) ∧
    (∀ x1, (Instr.dischargeTimeout 24 x1).wf = false) ∧
    (∀ x1 x2, (Instr.railFault 24 x1 x2).wf = false) ∧
    (∀ x1 x2, (Instr.railWarn 24 x1 x2).wf = false) ∧
    (Instr.headAbsent 6).wf = false ∧
    (∀ x1 x2 x3 x4 x5, (Instr.status 16 x1 x2 x3 x4 x5).wf = false) ∧
    (∀ x0 x1 x2, (Instr.registerWrite x0 x1 x2 [(16, 0)]).wf = false) ∧
    (∀ x0, (Instr.msixUnmask x0 32).wf = false) ∧
    (∀ x0 x2, (Instr.ringDb x0 64 x2).wf = false) := by
  refine ⟨?_, ?_, ?_, ?_, ?_, ?_, ?_, ?_, ?_, ?_, ?_, ?_⟩ <;> intros <;> simp [Instr.wf]

theorem test_ill_formed_2 :
    (∀ x0 x2, (Instr.ringDb x0 64 x2).wf = false) ∧
    (∀ x0, (Instr.ringEnable x0 64).wf = false) ∧
    (∀ x0, (Instr.ringDisable x0 64).wf = false) ∧
    (∀ x0 x2, (Instr.messageFetch x0 64 x2).wf = false) ∧
    (∀ x0 x2, (Instr.fetchError x0 ⟨64, x2⟩).wf = false) ∧
    (∀ x0 x2, (Instr.forwardedMessage x0 64 x2).wf = false) ∧
    (∀ x0 x2, (Instr.evtSet x0 4 x2).wf = false) ∧
    (∀ x0 x2, (Instr.evtMaskClear x0 4 x2).wf = false) ∧
    (∀ x0, (Instr.vectorTimer x0 32).wf = false) ∧
    (∀ x1, (Instr.svcI2cTransaction 128 x1).wf = false) ∧
    (∀ x0, (Instr.calSpareStep x0 16).wf = false) ∧
    (∀ x1 x2 x3, (Instr.encCount 4 x1 x2 x3).wf = false) := by
  refine ⟨?_, ?_, ?_, ?_, ?_, ?_, ?_, ?_, ?_, ?_, ?_, ?_⟩ <;> intros <;> simp [Instr.wf]

theorem test_ill_formed_3 :
    (∀ x1 x2 x3, (Instr.encCount 4 x1 x2 x3).wf = false) ∧
    (Instr.indexPulse 4).wf = false ∧
    (Instr.encLos 4).wf = false ∧
    (∀ x1, (Instr.ltkTick [] x1).wf = false) ∧
    (∀ x0 x2, (Instr.ltkTick x0 ⟨[], x2⟩).wf = false) ∧
    (∀ x1, (Instr.captureEdge 16 x1).wf = false) ∧
    (∀ x1, (Instr.captureFilterEnd 16 x1).wf = false) ∧
    (∀ x0, (Instr.capPop x0 16).wf = false) ∧
    (Instr.rejectPulseEnd 8).wf = false ∧
    (Instr.rejectOverload 8).wf = false ∧
    (Instr.rejectRetry 8).wf = false ∧
    (∀ x1 x2, (Instr.sosValid 6 x1 x2).wf = false) := by
  refine ⟨?_, ?_, ?_, ?_, ?_, ?_, ?_, ?_, ?_, ?_, ?_, ?_⟩ <;> intros <;> simp [Instr.wf]

theorem test_ill_formed_4 :
    (∀ x1 x2, (Instr.sosValid 6 x1 x2).wf = false) ∧
    (Instr.sosMissed 6).wf = false ∧
    (∀ x1, (Instr.eos 6 x1).wf = false) ∧
    (∀ x1, (Instr.ledPlaneLatch 6 x1).wf = false) ∧
    (∀ x0, (Instr.ledPlaneLatch x0 4).wf = false) ∧
    (∀ x1 x2, (Instr.beamFault 6 x1 x2).wf = false) ∧
    (∀ x0 x2, (Instr.beamFault x0 34 x2).wf = false) ∧
    (∀ x1, (Instr.decoderLineDone 6 x1).wf = false) ∧
    (Instr.decoderPageBoundary 6).wf = false ∧
    (Instr.decoderPageBegin 6).wf = false ∧
    (Instr.feedSeekFound 6).wf = false ∧
    (∀ x0 x2, (Instr.dmaEnable x0 32 x2).wf = false) := by
  refine ⟨?_, ?_, ?_, ?_, ?_, ?_, ?_, ?_, ?_, ?_, ?_, ?_⟩ <;> intros <;> simp [Instr.wf]

theorem test_ill_formed_5 :
    (∀ x0 x2, (Instr.dmaEnable x0 32 x2).wf = false) ∧
    (∀ x0 x2, (Instr.dmaJobFetch x0 32 x2).wf = false) ∧
    (∀ x0 x1, (Instr.dmaJobFetch x0 x1 []).wf = false) ∧
    (∀ x0 x2, (Instr.dmaNop x0 32 x2).wf = false) ∧
    (∀ x0 x1, (Instr.dmaNop x0 x1 []).wf = false) ∧
    (∀ x0 x2 x3, (Instr.dmaMove x0 32 x2 x3).wf = false) ∧
    (∀ x0 x1 x3, (Instr.dmaMove x0 x1 [] x3).wf = false) ∧
    (∀ x0, (Instr.dmaMoveComplete x0 32).wf = false) ∧
    (∀ x0, (Instr.dmaFeedSpace x0 32).wf = false) ∧
    (∀ x0 x2, (Instr.dmaLoop x0 32 x2).wf = false) ∧
    (∀ x0 x1, (Instr.dmaLoop x0 x1 []).wf = false) ∧
    (∀ x0 x2, (Instr.dmaWait x0 32 x2).wf = false) := by
  refine ⟨?_, ?_, ?_, ?_, ?_, ?_, ?_, ?_, ?_, ?_, ?_, ?_⟩ <;> intros <;> simp [Instr.wf]

theorem test_ill_formed_6 :
    (∀ x0 x2, (Instr.dmaWait x0 32 x2).wf = false) ∧
    (∀ x0 x1, (Instr.dmaWait x0 x1 []).wf = false) ∧
    (∀ x0, (Instr.dmaWaitDone x0 32).wf = false) ∧
    (∀ x0, (Instr.dmaPaceTimer x0 32).wf = false) ∧
    (∀ x0 x2, (Instr.dmaSignal x0 32 x2).wf = false) ∧
    (∀ x0 x1, (Instr.dmaSignal x0 x1 []).wf = false) ∧
    (∀ x0 x2, (Instr.dmaJump x0 32 x2).wf = false) ∧
    (∀ x0 x1, (Instr.dmaJump x0 x1 []).wf = false) ∧
    (∀ x0 x2, (Instr.dmaEnd x0 32 x2).wf = false) ∧
    (∀ x0 x1, (Instr.dmaEnd x0 x1 []).wf = false) ∧
    (∀ x0 x2, (Instr.dmaBusTimeout x0 32 x2).wf = false) ∧
    (∀ x0 x2, (Instr.dmaHostError x0 32 x2).wf = false) := by
  refine ⟨?_, ?_, ?_, ?_, ?_, ?_, ?_, ?_, ?_, ?_, ?_, ?_⟩ <;> intros <;> simp [Instr.wf]

theorem test_ill_formed_7 :
    (∀ x0 x2, (Instr.dmaHostError x0 32 x2).wf = false) ∧
    (∀ x0, (Instr.dmaDisable x0 32).wf = false) ∧
    (∀ x0, (Instr.dmaResume x0 32).wf = false) ∧
    (∀ x1, (Instr.motorTick 14 x1).wf = false) ∧
    (Instr.motorOvercurrent 14).wf = false ∧
    (Instr.tripRetry 14).wf = false ∧
    (Instr.speedRampTick 14).wf = false ∧
    (Instr.polyStartStep 14).wf = false ∧
    (∀ x1 x2, (Instr.bemfZeroCrossing 14 x1 x2).wf = false) ∧
    (Instr.catchSpinTimeout 14).wf = false ∧
    (∀ x1, (Instr.bissFrame 14 x1).wf = false) ∧
    (Instr.bissRetry 14).wf = false := by
  refine ⟨?_, ?_, ?_, ?_, ?_, ?_, ?_, ?_, ?_, ?_, ?_, ?_⟩ <;> intros <;> simp [Instr.wf]

theorem test_ill_formed_8 :
    (Instr.bissRetry 14).wf = false ∧
    (Instr.lockedRotor 14).wf = false ∧
    (∀ x1, (Instr.speedDev 14 x1).wf = false) ∧
    (∀ x1, (Instr.stepIntervalEnd 12 x1).wf = false) ∧
    (Instr.homeEdge 12).wf = false ∧
    (∀ x1, (Instr.stpBridgeFault 12 x1).wf = false) ∧
    (Instr.holdDelayEnd 12).wf = false ∧
    (Instr.gearTick 12).wf = false ∧
    (∀ x1 x2, (Instr.loopSample 256 x1 x2).wf = false) ∧
    (∀ x1, (Instr.densityRead 6 x1).wf = false) ∧
    (Instr.hvLimiting 26).wf = false ∧
    (Instr.hvTrip 26).wf = false := by
  refine ⟨?_, ?_, ?_, ?_, ?_, ?_, ?_, ?_, ?_, ?_, ?_, ?_⟩ <;> intros <;> simp [Instr.wf]

theorem test_ill_formed_9 :
    (Instr.hvTrip 26).wf = false ∧
    (Instr.hvRestart 26).wf = false ∧
    (Instr.hvArc 26).wf = false ∧
    (∀ x1 x2 x3, (Instr.fuserZeroCrossing 2 x1 x2 x3).wf = false) ∧
    (Instr.zcLost 2).wf = false ∧
    (Instr.fuserTempSample []).wf = false ∧
    (Instr.sensorDisagree 4).wf = false ∧
    (Instr.fuserOvercurrent 4).wf = false ∧
    (Instr.cutoutOpen 2).wf = false ∧
    (∀ x0 x2, (Instr.housekeepingSample x0 128 x2).wf = false) ∧
    (∀ x0, (Instr.ligFrame x0 17).wf = false) ∧
    (∀ x1 x2 x3 x4 x5, (Instr.signatureRecord 6 x1 x2 x3 x4 x5).wf = false) := by
  refine ⟨?_, ?_, ?_, ?_, ?_, ?_, ?_, ?_, ?_, ?_, ?_, ?_⟩ <;> intros <;> simp [Instr.wf]

theorem test_ill_formed_10 :
    (∀ x1 x2 x3 x4 x5, (Instr.signatureRecord 6 x1 x2 x3 x4 x5).wf = false) ∧
    (∀ x1, (Instr.signatureTimeout 6 x1).wf = false) ∧
    (∀ x1, (Instr.stationCheckpoint 6 x1).wf = false) ∧
    (Instr.forceDark [0, 6]).wf = false ∧
    (∀ x0 x2, (Instr.faultClassDrain x0 3 x2).wf = false) ∧
    (∀ x1 x2, (Instr.faultClassDrain 0 x1 x2).wf = false) ∧
    (∀ x1 x2, (Instr.faultClassDrain 25 x1 x2).wf = false) ∧
    (Instr.cutoutLoopClosed 2).wf = false ∧
    (Instr.hvLimitingEnd 26).wf = false ∧
    (∀ x0 x2 x3, (Instr.dmaReadCompletion x0 32 x2 x3).wf = false) := by
  refine ⟨?_, ?_, ?_, ?_, ?_, ?_, ?_, ?_, ?_, ?_⟩ <;> intros <;> simp [Instr.wf]

/-! ### Witnesses: Mouthpiece commands -/

theorem witness_SystemGroupServed :
    ok [meets .sysIdentify planSysIdentify (tMsg []) (tS id), meets .sysStatus (fun _ => planSysStatus) (tMsg []) (tS id),
     meets .sysEcho (fun msg _ => { reply := msg.payload }) (tMsg [1, 2, 3]) (tS id),
     meets .sysSetTime (fun msg _ => { act := fun t => { t with rtc := numAt msg.payload 0 8 } }) (tMsg (leBytes 8 9)) (tS id),
     meets .sysListDeferred (fun _ => planSysListDeferred) (tMsg []) (tS id),
     meets .sysCancel planSysCancel (tMsg (ws [5]))
       (tS (fun m => { m with deferred := [⟨0x0901, { tMsg [] with tag := 5 }, 0, []⟩] })),
     meets .sysClearFault (fun _ => planSysClearFault) (tMsg []) (tS (fun m => { m with eng := .faulted, cause := 5 }))] = true := by decide +kernel

theorem witness_LogGroupServed :
    ok [meets .logFilter planLogFilter (tMsg (ws [56, 2])) (tS id), meets .diagStream planDiagStream (tMsg (ws [62, 1])) (tS id),
     meets .shutdownRead (fun _ => planShutdownRead) (tMsg []) (tS id),
     meets .shutdownAck (fun _ _ => { act := fun t =>
       (({ t with shut := { t.shut with recs := [], overflow := false } }).setMgt .a 20 false).setMgt .b 20 false }) (tMsg []) (tS id),
     meets .logCopy planLogCopy (tBuf (ws [1, 0x1000, 0, 64, 0]) (List.replicate 64 0)) (tS id)] = true := by decide +kernel

theorem witness_RailGroupServed :
    ok [meets .railConfig planRailConfig (tMsg (ws [0, 5000 * 65536])) (tS id),
     meets .seqProgram planSeqProgram (tMsg (ws (2 :: (List.replicate 16 [15, 1000]).flatten))) (tS id),
     meets .seqRead (fun _ => planSeqRead) (tMsg []) (tS id), meets .seqPersist planSeqPersist (tMsg (ws [1])) (tS id),
     meets .resetPulse planResetPulse (tMsg (ws [3])) (tS id), meets .pwrTimers planPwrTimers (tMsg (ws [10, 2000, 60000])) (tS id),
     meets .perfCap planPerfCap (tMsg (ws [2])) (tS id),
     meets .seqUp (fun _ => planSeqUp) (tMsg []) (tS (fun m => m.wr .a 0x40004 0x20000000)) (fun m => m.seqState = 2 && !m.isSlave),
     meets .seqDown (fun _ => planSeqDown) (tMsg []) (tS id) (fun m => m.seqState = 0 && !m.isSlave),
     meets .seqUp (fun _ => planSeqUp) (tMsg []) (tS (fun m => m.wr .a 0x40000 0x01000000))
       (fun m => m.seqState = 0 && !m.isSlave && !m.isMaster && decide (0 < m.stepCount)),
     meets .seqUp (fun _ => planSeqUp) (tMsg []) (tS (fun m => (m.wr .a 0x40020 0x00000002).modBus (fun b => { b with heard := true })))
       (fun m => m.seqState != 2 && m.isSlave),
     meets .seqDown (fun _ => planSeqDown) (tMsg [])
       (tS (fun m => (((m.wr .a 0x40004 0x20000000).wr .a 0x40000 0x01000000).wr .a 0x40100 1).wr .a 0x40300 2))
       (fun m => m.seqState = 2 && !m.isSlave && !m.isMaster && decide (0 < m.stepCount) &&
         (m.stepRails (m.stepCount - 1)).any m.railOn)] = true := by decide +kernel

theorem witness_RailSequenceSteps :
    ok [-- GO_UP and GO_DOWN under Drone, alone and as a slave
     (let m := (tS (fun m => (m.wr .a 0x10000 0).wr .a 0x40000 0x01000000)).m
     m.droneRules .a && m.seqState = 0 && !m.isSlave && !m.isMaster && decide (0 < m.stepCount)),
     (let m := (tS (fun m => ((m.wr .a 0x10000 0).wr .a 0x40020 2).modBus (fun b => { b with heard := true }))).m
     m.droneRules .a && m.isSlave),
     (let m := (tS (fun m => ((m.wr .a 0x10000 0).wr .a 0x40000 0x01000000).wr .a 0x40004 0x20000000)).m
     m.droneRules .a && m.seqState = 2 && !m.isSlave && !m.isMaster && decide (0 < m.stepCount)),
     -- a rise: RAIL_IN_WINDOW, STEP_END to the next step and from the last, RISE_TIMEOUT
     (let m := (tS (fun m => ((m.wr .a 0x40004 0x10000000).wr .a 0x40000 0x02000000).wr .a 0x40100 1)).m
     m.seqState = 1 && !m.seq.inWindow && (m.upRails m.curStep).contains 0),
     (let m := (tS (fun m => ((m.wr .a 0x40004 0x10000000).wr .a 0x40000 0x02000000).modSeq (fun q => { q with inWindow := true }))).m
     m.seqState = 1 && m.seq.inWindow && !m.bus.grouped && decide (m.curStep + 1 < m.stepCount)),
     (let m := (tS (fun m => ((m.wr .a 0x40004 0x11000000).wr .a 0x40000 0x02000000).modSeq (fun q => { q with inWindow := true }))).m
     m.seqState = 1 && m.seq.inWindow && !m.bus.grouped && decide (m.stepCount ≤ m.curStep + 1)),
     -- a rail that is judged in ON, one that is not, a rail late in the rise that failed, and a station with a rail on
     (let m := (tS (fun m => (m.wr .a 0x40004 0x20000000).wr .a 0x40300 2)).m
     m.railJudged 0 && !m.railJudged 1 && !m.bus.grouped && m.pages.isEmpty && m.railOn 0 && decide (0 < stationsOf m.part)),
     (let m := (tS (fun m => (m.wr .a 0x40004 0x30000000).modSeq (fun q => { q with late := [1] }))).m
     m.seq.late.contains 1 && m.seqState = 3)] = true := by decide +kernel

theorem witness_SequencingBusEvents :
    ok [(tS (fun m => m.wr .a 0x10000 0)).m.droneRules .a,
     (tS (fun m => { m with power := { m.power with rstHost := ⟨true, true⟩, rstHead := ⟨true, true⟩ } })).m.power.rstHost.stretch,
     (tS (fun m => { m with power := { m.power with rstHost := ⟨true, true⟩, rstHead := ⟨true, true⟩ } })).m.power.rstHead.stretch,
     (let m := (tS (fun m => m.wr .a 0x40020 0x00060000)).m
     m.isMaster && m.booted && m.hearsBus && hasBit (m.get .a 0x40020 16 16) 2 && !m.bus.grouped && !bitOf (m.rd .a 0x40004) 23),
     (let m := (tS (fun m => m.wr .a 0x40020 2)).m
     m.get .a 0x40020 0 4 = 2 && m.hearsBus && m.bus.lastHb = none && m.onBus),
     -- a heartbeat like the last one, and one that polls a slave that has come back
     (let m := (tS (fun m => (m.wr .a 0x40020 2).modBus (fun b => { b with lastHb := some (2, 0) }))).m
     m.get .a 0x40020 0 4 = 2 && m.hearsBus && m.bus.lastHb = some (2, 0) && !m.bus.returning),
     (let m := (tS (fun m => ((m.wr .a 0x40020 2).wr .a 0x40000 0x01000000).modBus (fun b => { b with lastHb := some (2, 0), returning := true }))).m
     m.get .a 0x40020 0 4 = 2 && m.hearsBus && decide (0 < m.stepCount) && m.seqState = 0 && m.bus.returning && m.bus.lastHb = some (2, 0)),
     -- a module that does not hear the bus
     !((tS (fun m => { m with power := { m.power with phase := .softOff } })).m.hearsBus),
     (let m := (tS (fun m => ((m.wr .a 0x40020 2).wr .a 0x40000 0x01000000).modBus (fun b => { b with lastHb := some (0, 0), heard := true }))).m
     m.get .a 0x40020 0 4 != 0 && m.hearsBus && decide (0 < m.stepCount) && m.seqState = 0 &&
       m.bus.lastHb = some (0, 0) && ((0, 0) : Nat × Nat) != (1, 0) && m.isSlave),
     -- a slave whose serial changes, and one polled without an answer for the third time and for the first
     (let m := (tS (fun m => (m.wr .a 0x40020 0x00060000).modBus (fun b => { b with polled := 2, unanswered := [(2, 2)], serials := [(2, 5)] }))).m
     m.isMaster && tabFind m.bus.serials 2 == some 5 && m.bus.polled = 2 && hasBit (m.get .a 0x40020 16 16) m.bus.polled &&
       tabGet 0 m.bus.unanswered m.bus.polled = 2),
     (let m := (tS (fun m => (m.wr .a 0x40020 0x00060000).modBus (fun b => { b with polled := 2 }))).m
     tabGet 0 m.bus.unanswered m.bus.polled != 2),
     frameBad [0], hasBit 0 2 = false, hasBit 0 3 = false] = true := by decide +kernel

/-- A screening set for an LED station, as image memory lists it: one array of 4 by 1 thresholds and TRC curves of zeros, 2304 bytes;
its CRC is CRC-32C of the rest. -/
def tSet : List Host.Cell :=
    [(268435456, 83), (268435457, 67), (268435458, 82), (268435459, 83), (268435460, 1), (268435462, 1), (268435464, 1),
     (268435467, 100), (268435470, 1), (268435472, 1), (268435478, 1), (268435479, 1), (268435481, 100), (268435482, 8),
     (268435484, 20), (268435489, 1), (268435492, 4), (268435494, 1), (268435553, 1), (268435561, 9), (268435708, 90),
     (268435709, 213), (268435710, 203), (268435711, 102)]

/-- Job 1 defined with its screening set in region 3, and the drum of station 0 and the belt with curves. -/
def tArm : State :=
  let s := tS (fun m => [0, 6].foldl (fun t n => ((t.wr .a (mdrBase n + 0x100) 0x00020000).wr .a (mdrBase n + 0x300) 2).wr .a (mdrBase n + 0x208) 1000)
    { tReady m with jobs := [(1, tJob)], regions := [(3, ⟨firmwareEnd, 65536⟩)] })
  { s with img := ⟨⟨tSet, []⟩, s.img.b⟩ }

theorem witness_JobGroupServed :
    ok [meets .jobDefine planJobDefine (tMsg (ws [1, 0x30010101, 1000, 0] ++ ws [3, 0, 0, 0, 0, 0] ++ ws [0, 0])) (tS id),
     meets .jobRead planJobRead (tMsg (ws [1])) (tS (tArmed .armed false)),
     meets .jobDelete planJobDelete (tMsg (ws [1])) (tS (fun m => { m with jobs := [(1, tJob)] })),
     meets .pageQueue planPageQueue (tMsg (ws ([1, 1, 1000, 0x00010100] ++ List.replicate 12 0))) (tS (tArmed .armed false)),
     meets .pageWithdraw planPageWithdraw (tMsg (ws [1, 1]))
       (tS (fun m => { tArmed .armed false m with jobs := [(1, tJob.enqueue (newDesc (ws [1, 1, 1000, 0x00010100])))] })) (fun m => m.pages.isEmpty),
     meets .pageWithdraw planPageWithdraw (tMsg (ws [1, 1])) (tS (tArmed .printing true))
       (fun m => m.pages.any (fun e => e.2.job = 1 && e.2.pageNo = 1 && !e.2.committed)),
     meets .jobEnd (fun msg m => planEnding msg m (.jobEnd (numAt msg.payload 0 4)) Mach.endJob) (tMsg (ws [1])) (tS (tArmed .printing true))
       (fun m => !m.pages.isEmpty),
     meets .jobEnd (fun msg m => planEnding msg m (.jobEnd (numAt msg.payload 0 4)) Mach.endJob) (tMsg (ws [1])) (tS (tArmed .armed false))
       (fun m => m.pages.isEmpty),
     meets .jobAbort (fun msg m => planEnding msg m (.jobAbort (numAt msg.payload 0 4)) Mach.abortJob) (tMsg (ws [1]))
       (tS (tArmed .printing true))] = true := by decide +kernel

/-- The bytes of `tSet`, in order. -/
def tSetBytes : List Byte :=
  [83, 67, 82, 83, 1, 0, 1, 0, 1, 0, 0, 100, 0, 0, 1, 0, 1, 0, 0, 0, 0, 0, 1, 1, 0, 100, 8, 0, 20, 0, 0, 0, 0, 1, 0, 0, 4,
   0, 1, 0, 0, 0, 0, 0, 0, 0, 0, 0, 0, 0, 0, 0, 0, 0, 0, 0, 0, 0, 0, 0, 0, 0, 0, 0, 0, 0, 0, 0, 0, 0, 0, 0, 0, 0, 0, 0, 0,
   0, 0, 0, 0, 0, 0, 0, 0, 0, 0, 0, 0, 0, 0, 0, 0, 0, 0, 0, 0, 1, 0, 0, 0, 0, 0, 0, 0, 9, 0, 0, 0, 0] ++ List.replicate 142 0 ++
    [90, 213, 203, 102] ++ List.replicate 2048 0

theorem tSet_reads : (readSets tJob (tArm.img, tArm.tick)).2 = [(0, .bytes tSetBytes)] := by decide +kernel

theorem tSet_keeps : (readSets tJob (tArm.img, tArm.tick)).1.2 = tArm.tick := by decide +kernel

theorem witness_JobGroupServed_arm :
    tabFind tArm.m.jobs 1 = some tJob ∧ tArm.tick.accepts { cmdJobArm with states := inCAPDF } (tMsg (ws [1])) {} = true ∧
    (readSets tJob (tArm.img, tArm.tick)).1.2.takes cmdJobArm (tMsg (ws [1]))
      (planJobArm (tMsg (ws [1])) (some (readSets tJob (tArm.img, tArm.tick)).2)) := by
  rw [tSet_reads, tSet_keeps]
  decide +kernel

/-- A module with a region, a plane and room, for the image memory group. -/
def tPlanes (m : Mach) : Mach :=
  { m with regions := [(3, ⟨firmwareEnd, 131072⟩)]
           planes := [(4, { region := 3, off := firmwareEnd, codec := false, width := 64, lines := 1, bytes := 80 })] }

theorem witness_ImageMemoryGroupServed :
    ok [meets .memAlloc planMemAlloc (tMsg (leBytes 8 100)) (tS id), meets .memFree planMemFree (tMsg (ws [3])) (tS tPlanes),
     meets .planeDelete planPlaneDelete (tMsg (ws [4])) (tS tPlanes),
     meets .memReadStat (fun msg t =>
      let d := affinitySide msg
      { reply := leBytes 8 (65536 * (t.freeBlocks.map Prod.snd).foldl (· + ·) 0) ++ leBytes 8 (65536 * t.largestFree) ++
          leBytes 2 (t.get d mgtStat 0 16) ++ leBytes 2 (t.get d 0x300004 0 16) ++ wordBytes (t.rd d 0x300008) }) (tMsg []) (tS id),
     meets .planeDefine (fun msg => planPlaneDefine msg none)
       (tMsg (leBytes 4 3 ++ leBytes 8 0 ++ [0, 0] ++ leBytes 2 64 ++ ws [1, 80])) (tS tPlanes) (fun _ => true),
     meets .planeEncode planPlaneEncode (tMsg (ws [4, 3, 1])) (tS tPlanes)] = true := by decide +kernel

/-- The first header of a codec stream, and the state that holds it in its region. -/
def tCodec : State :=
  let s := tS tPlanes
  let h := [0xF8, 3, 1, 0] ++ leBytes 4 0 ++ leBytes 4 64 ++ List.replicate 4 (0 : Byte) ++ leBytes 4 1 ++ List.replicate 8 0
  { s with img := { s.img with a := s.img.a.write firmwareEnd (h ++ wordBytes (crc32c h)) } }

theorem witness_ImageMemoryGroupServed_codec :
    let msg := tMsg (leBytes 4 3 ++ leBytes 8 0 ++ [1, 0] ++ leBytes 2 64 ++ ws [1, 80])
    numAt msg.payload 12 1 = 1 ∧ tCodec.tick.accepts cmdPlaneDefine msg (planPlaneDefine msg none tCodec.tick) = true ∧
    (readOnSides (tCodec.tick.planeAt msg) 32 (tCodec.img, tCodec.tick)).1.2.takes cmdPlaneDefine msg
      (planPlaneDefine msg (some (readOnSides (tCodec.tick.planeAt msg) 32 (tCodec.img, tCodec.tick)).2)) := by
  decide +kernel

theorem witness_FieldGroupServed :
    ok [meets .tplDelete planTplDelete (tMsg (ws [2])) (tS (fun m => { m with tpls := [(2, ⟨[], false⟩)] })),
     meets .counterSet planCounterSet (tMsg (ws [0, 0, 5, 0])) (tS id), meets .counterRead planCounterRead (tMsg (ws [0])) (tS id),
     meets .lotSet planLotSet (tMsg (ws [0] ++ [0x41])) (tS id)] = true := by decide +kernel

/-- A template set with one layout of one panel, one template and one field of type 6 without data; its CRC is that of the rest. -/
def tTpl : List Byte :=
  leBytes 4 0x54535043 ++ [1, 0, 1, 1, 1, 0, 0, 0] ++ ws [128, 64, 88, 96, 128, 128, 0] ++ [0, 0, 255, 255, 255, 255, 255, 255] ++
    List.replicate 12 0 ++ leBytes 4 2670755957 ++ leBytes 4 72 ++ [1, 0, 0, 0] ++ ws [0, 0, 100, 255] ++ [0, 0, 1, 0, 0, 0, 0, 0] ++
    [6, 0, 0, 0, 0, 0, 10, 0, 0, 0, 0, 0, 10, 0] ++ List.replicate 18 0

/-- The header of a glyph store without glyphs; its CRC is that of 2048 zeros. -/
def tGlyphHead : List Byte := leBytes 4 0x4C594757 ++ [8, 0, 0, 0] ++ leBytes 4 2064 ++ leBytes 4 2760475471

/-- A glyph store without glyphs. -/
def tGlyphs : List Byte := tGlyphHead ++ List.replicate 2048 0

/-- A feed entry for job 1 with FEED_SEQ 1. -/
def tFeed : List Byte := ws [1, 1, 0, 0, 0, 100] ++ [0xFF, 0, 0, 0, 0, 0, 0, 0] ++ List.replicate 224 0

theorem witness_FieldGroupServed_loads :
    ok [meets .tplLoad planTplLoad (tBuf (ws [0x1000, 0, 128, 0]) tTpl) (tS id),
     meets .feedSubmit planFeedSubmit (tBuf (ws [0x1000, 0, 256, 0]) tFeed) (tS (tArmed .armed false)),
     feedEntry 1 1 .either tFeed != none] = true := by decide +kernel

theorem witness_FieldGroupServed_glyphs :
    meets .glyphLoad planGlyphLoad (tBuf (ws [0, 0x1000, 0, 2064, 0]) tGlyphs) (tS id) = true := by decide +kernel

theorem witness_LineTrackingGroupServed :
    ok [meets .encConfig planEncConfig (tMsg (ws [0, 1, 1000, 4096, 10, 0, 0, 0])) (tS id),
     meets .stationOffset planStationOffset (tMsg (ws [0, 4096])) (tS id),
     meets .cmpLoad planCmpLoad (tMsg (ws [0, 100, 0, 64, 0, 5, 0, 0])) (tS id) (fun m => decide (m.encPos 0 < 100)),
     meets .cmpStop planCmpStop (tMsg (ws [0])) (tS id), meets .capConfig planCapConfig (tMsg (ws [0, 1])) (tS id),
     meets .rejConfig planRejConfig (tMsg (ws [0, 0, 64, 0])) (tS id), meets .ltkRead planLtkRead (tMsg (ws [0])) (tS id)] = true := by
  decide +kernel

theorem witness_EncoderEvents :
    ok [(tS id).m.tracking, lineIdleB (tS id).m, edgeStep ((tS id).m.getA (encBase 0) 0 2) true false false = 0,
     (let m := (tS (fun m => m.wr .a (encBase 0) 1)).m
     m.tracking && lineIdleB m && edgeStep (m.getA (encBase 0) 0 2) true false false != 0),
     -- INDEX_PULSE: the reference, a good distance and a bad one
     (let m := (tS (fun m => ((m.wr .a (encBase 0) 0x2001).wr .a (encBase 0 + 8) 4096).modEnc 0 (fun e => { e with forward := true }))).m
     m.tracking && lineIdleB m && m.bitA (encBase 0) 13 && m.rdA (encBase 0 + 8) != 0 && (m.encOf 0).forward && !m.bitA (encBase 0 + 0x24) 23),
     (let m := (tS (fun m => ((((m.wr .a (encBase 0) 0x2001).wr .a (encBase 0 + 8) 4096).wr .a (encBase 0 + 0xC) 10).wr .a (encBase 0 + 0x24)
       0x00800000).modEnc 0 (fun e => { e with forward := true, refPos := m.encPos 0 - 4096 }))).m
     m.tracking && lineIdleB m && m.bitA (encBase 0) 13 && m.rdA (encBase 0 + 8) != 0 && (m.encOf 0).forward && m.bitA (encBase 0 + 0x24) 23 &&
       decide ((m.encPos 0 - (m.encOf 0).refPos - ((m.rdA (encBase 0 + 8)).toNat : Int)).natAbs ≤ m.getA (encBase 0 + 0xC) 0 16)),
     (let m := (tS (fun m => (((m.wr .a (encBase 0) 0x2001).wr .a (encBase 0 + 8) 4096).wr .a (encBase 0 + 0x24)
       0x00800000).modEnc 0 (fun e => { e with forward := true, refPos := m.encPos 0 - 9000 }))).m
     m.tracking && lineIdleB m && m.bitA (encBase 0) 13 && m.rdA (encBase 0 + 8) != 0 && (m.encOf 0).forward && m.bitA (encBase 0 + 0x24) 23 &&
       !decide ((m.encPos 0 - (m.encOf 0).refPos - ((m.rdA (encBase 0 + 8)).toNat : Int)).natAbs ≤ m.getA (encBase 0 + 0xC) 0 16)),
     -- ENC_LOS, with a healthy channel to take over
     (let m := (tS (fun m => (m.wr .a (encBase 0) 0x00090001).wr .a (encBase 1) 1)).m
     m.tracking && lineIdleB m && m.getA (encBase 0) 0 2 = 1 && !m.bitA (encBase 0 + 0x24) 29 && m.bitA (encBase 0) 19 &&
       m.backupOf 0 != 0 && m.encHealthy (m.backupOf 0) && !m.bitA (encBase 0 + 0x24) 30),
     (tS id).m.enc.isEmpty] = true := by decide +kernel

theorem witness_CaptureAndRejectEvents :
    ok [(tS id).m.tracking, (tS id).m.inService .a,
     (let m := (tS (fun m => m.modCap .a 0 (fun c => { c with pend := some (true, some 5) }))).m
      (m.capOf .a 0).pend = some (true, some 5) && !edgeTaken (m.getA 0xD02000 0 2) true),
     (let m := (tS (fun m => (m.modCap .a 0 (fun c => { c with pend := some (true, some 5) })).wr .a 0xD02000 1)).m
      (m.capOf .a 0).pend = some (true, some 5) && edgeTaken (m.getA 0xD02000 0 2) true && decide ((m.capOf .a 0).fifo.length < 8)),
     (let m := (tS (fun m => (m.modCap .a 0 (fun c => { c with fifo := List.replicate 8 0 })).wr .a 0xD02000 1)).m
      edgeTaken (m.getA 0xD02000 0 2) true && decide (8 ≤ (m.capOf .a 0).fifo.length) && m.io24),
     (let m := (tS (fun m => m.modCap .a 0 (fun c => { c with pend := some (true, none) }))).m
      (m.capOf .a 0).pend = some (true, none)),
     -- POP written to CAP_STAT, and an input without its supply
     (tS id).m.bar0On .a 0xD02004, bitOf (0x20000000 : Word) 29, !(tS (fun m => { m with io24 := false })).m.io24,
     (let m := (tS (fun m => (m.modRej 0 (fun r => { r with running := 2, overload := true })).wr .a 0xD0300C 0x80000000)).m
      decide (0 < (m.rejOf 0).running) && m.bitA 0xD0300C 31 && (m.rejOf 0).overload)] = true := by decide +kernel

/-- A stepper in a state, at rest or not. -/
def tStep (st : Nat) (f : Stepper → Stepper) (m : Mach) : Mach := (m.wr .a (stpBase 0) (BitVec.ofNat 32 (st * 2 ^ 28))).modStep 0 f

/-- A motor in a state. -/
def tMotor (n st : Nat) (f : Motor → Motor) (m : Mach) : Mach := (m.wr .a (mdrBase n) (BitVec.ofNat 32 (st * 2 ^ 28))).modMotor n f

theorem witness_MotionGroupServed :
    ok [meets .motorConfig planMotorConfig (tBuf (ws [0, 0x04000C01, 100, 1000, 0, 0, 0, 0, 0, 0, 1, 0, 0, 0, 0, 0]) []) (tS id),
     meets .motorSpeed planMotorSpeed (tMsg (ws [0, 0, 100])) (tS id),
     meets .motorStop planMotorStop (tMsg (ws [0])) (tS (tMotor 0 4 id)) (fun m => m.motorState 0 = 4),
     meets .motorStop planMotorStop (tMsg (ws [256])) (tS (tStep 2 (fun x => { x with ivl := 5, v := 1 })))
       (fun m => (m.stepOf 0).ivl != 0 && m.stepState 0 = 2),
     meets .stpConfig planStpConfig (tMsg (ws [0, 0x00010000, 0, 0, 0, 0, 0, 0])) (tS id),
     meets .stpMove planStpMove (tMsg (ws [0, 2560, 0, 1000, 1000, 0])) (tS id)
       (fun m => m.stepState 0 != 5 && decide ((2560 : Int) ≠ (m.stepOf 0).pos)),
     meets .stpMove planStpMove (tMsg (ws [0, 0, 0, 1000, 1000, 0])) (tS id)
       (fun m => m.stepState 0 != 5 && m.stepState 0 != 3 && (m.stepOf 0).ivl = 0 && m.awaits.isEmpty && (m.stepOf 0).pos = 0),
     meets .stpMove planStpMove (tMsg (ws [0, 2560, 0, 1000, 1000, 0])) (tS (fun m => (tStep 5 id m).wr .a (stpBase 0 + 4) 0x80000000))
       (fun m => m.stepState 0 = 5 && m.stpLocked 0),
     meets .stpGear planStpGear (tMsg (ws [0, 1, 1, 100, 0, 0])) (tS id)
       (fun m => m.stepState 0 != 5 && decide (m.encPos 0 < 100)),
     meets .stpGear planStpGear (tMsg (ws [0x00010000, 1, 1, 0, 0, 0])) (tS id) (fun m => m.stepState 0 != 5 && decide (0 ≤ m.encPos 0)),
     meets .motionRead planMotionRead (tMsg (ws [0])) (tS id)] = true := by decide +kernel

theorem witness_MotorEvents :
    ok [(let m := (tS id).m
      m.hasMotor 0 && m.motorState 0 = 0),
     (let m := (tS (tMotor 8 2 id)).m
      m.hasMotor 8 && m.motorState 8 = 2 && !m.bitA (mdrBase 8) 10 && m.motorState 8 != 0 && m.motorState 8 != 6 && !m.bitA (mdrBase 8) 9),
     (let m := (tS (tMotor 0 4 id)).m
      m.hasMotor 0 && m.motorState 0 = 4 && !m.bitA (mdrBase 0) 10 && m.motorState 0 != 0 && m.motorState 0 != 6 && !m.bitA (mdrBase 0) 9 &&
        !m.bitA (mdrBase 0) 13 && !(m.motorOf 0).encWait && (m.motorOf 0).bissBad != 3),
     (let m := (tS (tMotor 0 4 (fun x => { x with bissBad := 3, tripped := true, encWait := true }))).m
      (m.motorOf 0).bissBad = 3 && (m.motorOf 0).tripped && m.motorState 0 = 4 && !(m.motorOf 0).clamped && (m.motorOf 0).encWait),
     (let m := (tS (tMotor 0 4 (fun x => { x with bissBad := 3 }))).m
      !(m.motorOf 0).encWait && (m.motorOf 0).bissBad = 3 && !m.bitA (mdrBase 0) 9),
     (let m := (tS (tMotor 8 3 id)).m
      m.hasMotor 8 && m.motorState 8 = 3 && !(m.motorOf 8).spin && !m.bitA (mdrBase 8) 9 && !(m.motorOf 8).quiet && (m.motorOf 8).crossings + 1 != 18),
     (let m := (tS (tMotor 8 1 id)).m
      m.motorState 8 = 1),
     (let m := (tS (tMotor 8 2 (fun x => { x with at1500 := true }))).m
      m.motorState 8 = 2 && (m.motorOf 8).at1500),
     (let m := (tS (tMotor 8 3 (fun x => { x with spin := true, crossings := 17 }))).m
      m.motorState 8 = 3 && !(m.motorOf 8).quiet && (m.motorOf 8).crossings + 1 = 18 && (m.motorOf 8).spin),
     (let m := (tS (tMotor 8 3 (fun x => { x with quiet := true }))).m
      m.motorState 8 = 3 && (m.motorOf 8).quiet && !(m.motorOf 8).seen)] = true := by decide +kernel

theorem witness_MotorBusEvents :
    ok [(let m := (tS id).m
      !(m.bitA 0xE08000 14 || m.bitA 0xE08000 13) && !m.bitA 0xE08000 12),
     decide (max (10 * clampNat 520 600 ((tS id).m.getA 0xE08004 0 10)) (4800 + 100) ≤ 6000 ∧ max 5800 (4800 + 200) ≤ 6000),
     (let m := (tS (fun m => m.wr .a 0xE08000 0x00006000)).m
      m.bitA 0xE08000 14 && m.bitA 0xE08000 13)] = true := by decide +kernel

theorem witness_StepperEvents :
    ok [(let m := (tS (tStep 2 (fun x => { x with ivl := 5, v := 1 }))).m
      decide (0 < steppersOf m.part) && m.stepState 0 = 2 && (m.stepOf 0).ivl != 0 && (m.stepOf 0).homing.isNone),
     (let m := (tS (tStep 2 (fun x => { x with pos := 0, ivl := 5, v := 1 }))).m
      decide (((m.stepOf 0).pos + (m.stepOf 0).dir * m.stepSize 0) % 256 = 0)),
     (let m := (tS (tStep 2 (fun x => { x with home := true, ivl := 5 }))).m
      m.stepState 0 = 2 && (m.stepOf 0).home && (m.stepOf 0).homing.isNone && (m.stepOf 0).ivl != 0),
     (let m := (tS (tStep 2 (fun x => { x with home := true }))).m
      m.stepState 0 = 2 && (m.stepOf 0).home && (m.stepOf 0).homing.isNone && (m.stepOf 0).ivl = 0),
     (let m := (tS (tStep 1 id)).m
      m.stepState 0 = 1 && !m.bitA (stpBase 0) 10 && m.stepState 0 != 5),
     (let m := (tS (tStep 3 (fun x => { x with gear := some ⟨0, true, false, 1, 1, 0⟩ }))).m
      m.stepState 0 = 3 && (m.stepOf 0).gear.isSome && (m.stepOf 0).pending.isNone)] = true := by decide +kernel

/-- A loop in a state, with bytes of its descriptor changed. -/
def tLoop (n st : Nat) (bytes : List (Nat × Byte)) (m : Mach) : Mach :=
  m.modLoop n (fun l => { l with st := st, desc := bytes.foldl (fun d e => d.set e.1 e.2) l.desc })

/-- Fuser channel 0 configured: sensor 0, MAX_DUTY 50, 100.0 °C, limit 120.0 °C. -/
def tFuser (st : Nat) (m : Mach) : Mach :=
  { (((m.wr .a (fsrBase 0 + 0x14) 0x3200F000).wr .a (fsrBase 0 + 0x18) (BitVec.ofNat 32 (1000 + 1200 * 65536))).wr .a (fsrBase 0 + 0x1C)
      0x010101F4).wr .a (fsrBase 0) (BitVec.ofNat 32 (st * 2 ^ 29)) with ilk := { m.ilk with cut0 := true, cut1 := true } }

theorem witness_ProcessGroupServed :
    ok [meets .loopLoad planLoopLoad (tMsg (ws [0] ++ (Loop.init 0).desc)) (tS id),
     meets .loopSetpoint planLoopSetpoint (tMsg (ws [100, 0x3F800000])) (tS id),
     meets .hvSet planHvSet (tMsg (ws [2, 0, 0, 0])) (tS id),
     meets .hvEnable planHvEnable (tMsg (ws [4, 1])) (tS (fun m => (tReady m).wr .a (hvBase 2) 0x00100000)),
     meets .fuserSet planFuserSet (tMsg (ws [0x3200F000, 1000 + 1200 * 65536, 0x010101F4])) (tS id),
     meets .fuserEnable planFuserEnable (tMsg (ws [1, 1])) (tS (tFuser 0)),
     meets .processRead planProcessRead (tMsg (ws [0])) (tS id)] = true := by decide +kernel

theorem witness_LoopSamples :
    ok [(let m := (tS (fun m => tLoop 0 1 [] (tMotor 0 4 id m))).m
      loopFitted m.part 0 && loopTrig (m.loopOf 0).desc = 1 && m.loopApplies 0 && (m.loopOf 0).st = 1 && m.cal.ramps.isEmpty &&
        !m.bitA calStat 27 && (List.range 256).all (fun k => loopTrig (m.loopOf k).desc != 4 || loopArg (m.loopOf k).desc != 0) &&
        m.loopInput 0 = none && numAt (m.loopOf 0).desc 13 1 = 0),
     (let m := (tS (fun m => tLoop 0 1 [(13, 1), (15, 1)] (tMotor 0 4 id m))).m
      numAt (m.loopOf 0).desc 13 1 = 1 && !m.jobLoop 0 && decide (numAt (m.loopOf 0).desc 15 1 ≤ (m.loopOf 0).bad + 1) && m.loopApplies 0 &&
        (m.loopOf 0).st = 1 &&
        flt (wordAt (m.loopOf 0).desc 56) (fabs (fsub (f32 1000) (modelStep (m.loopOf 0) (loopPeriod (m.loopOf 0).desc)).1))),
     (let m := (tS id).m
      loopFitted m.part 0 && loopTrig (m.loopOf 0).desc = 1 && !m.loopApplies 0 && m.loopInput 0 = none && m.drv.dens.isEmpty &&
        decide (0 < stationsOf m.part) && decide (m.getA 0x20004 19 3 < 2)),
     decide (2 ≤ (tS (fun m => m.wr .a 0x20004 0x00100000)).m.getA 0x20004 19 3)] = true := by decide +kernel

theorem witness_HighVoltageEvents :
    ok [(let m := (tS (fun m => m.wr .a (hvBase 2) 0x20200000)).m
      m.hvLive 2 && m.getA (hvBase 2) 20 4 = 2 && !m.bitA (hvBase 2) 27),
     (let m := (tS (fun m => m.wr .a (hvBase 2) 0x20100000)).m
      m.hvLive 2 && m.getA (hvBase 2) 20 4 != 2 && !m.bitA (hvBase 2) 28),
     (let m := (tS (fun m => m.wr .a (hvBase 2) 0x30100000)).m
      m.hvLive 2 && !m.bitA (hvBase 2) 26 && m.bitA (hvBase 2) 28),
     (let m := (tS (fun m => m.wr .a (hvBase 2) 0x60100000)).m
      m.hvState 2 = 3 && decide (2 < hvOf m.part))] = true := by decide +kernel

theorem witness_FuserEvents :
    ok [(let m := (tS (fun m => (tFuser 1 m).wr .a (fsrMains 0) 1)).m
      decide (0 < fusersOf m.part) && (List.range 4).all (fun c => !m.bitA (fsrBase c) 26) && m.lineGood 0 && m.fsrState 0 = 1 && m.fsrLive 0 &&
        !m.bitA (fsrMains 0) 1 && fsrSet (m.fsrCfg 0) && decide (0 ∈ fsrInputs (m.fsrCfg 0)) && decide ((numAt (m.fsrCfg 0) 6 2 : Int) ≤ 1300)),
     (let m := (tS (fun m => ((tFuser 5 m).wr .a (fsrMains 0) 2).modDrv (fun d => { d with zcGood := [(0, 7)] }))).m
      m.bitA (fsrMains 0) 1 && tabGet 0 m.drv.zcGood 0 = 7),
     (let m := (tS (fun m => (tFuser 1 m).put .a (fsrBase 0) 26 1 1 |>.modFsr 0 (fun f => { f with openRun := 3 }))).m
      m.bitA (fsrBase 0) 26 && (m.fsrOf 0).openRun = 3),
     (let m := (tS (fun m => (tFuser 1 m).modFsr 0 (fun f => { f with overRun := 2 }))).m
      (m.fsrOf 0).overRun = 2 && m.fsrLive 0),
     (let m := (tS (fun m => (tFuser 1 m).wr .a (fsrBase 0 + 0x14) 0x32001000)).m
      m.fsrLive 0 && (fsrInputs (m.fsrCfg 0)).length = 2)] = true := by decide +kernel

theorem witness_InterlockEvents :
    ok [(let m := (tS tReady).m
      (List.range 6).all (fun k => !(m.stnOf k).sweepOpen) && m.ilk.shut .laser && m.ilk.shut .hv && !engLive m.eng),
     (let m := (tS (tArmed .armed false)).m
      m.ilk.shut .laser && engLive m.eng && m.pages.isEmpty && m.awaits.isEmpty && m.deferred.isEmpty),
     !(tS id).m.ilk.shut .laser, !(tS id).m.ilk.shut .hv,
     (let m := (tS (fun m => { m with ilk := { m.ilk with hvA := true } })).m
      !m.ilk.shut .hv && (m.ilk.setChan true .hv .b).shut .hv)] = true := by decide +kernel

/-- Side B fitted and following: a pair whose standby is in step. -/
def tPair (m : Mach) : Mach := (({ m with b := tSide .shadow }.modSide .a (fun x => { x with st := .active })).setMgt .a 29 true).setMgt .b 29 true

/-- A running calibration of converter group 0. -/
def tCal : Await := { kind := .calRun 1 1, opcode := 0x0901, msg := tMsg (ws [1, 1]), deferred := false }

/-- Results of an item of calibration 1 with these differences. -/
def tRes (diffs : List Nat) : CalResult :=
  { side := 1, inst := 0, index := 2, offsets := (1, 1), gains := (0, 0), diffs := diffs, primary := 0 }

/-- The base point of P-256 (FIPS 186-4), as a public key. -/
def tPoint : List Byte :=
  [4, 0x6B, 0x17, 0xD1, 0xF2, 0xE1, 0x2C, 0x42, 0x47, 0xF8, 0xBC, 0xE6, 0xE5, 0x63, 0xA4, 0x40, 0xF2, 0x77, 0x03, 0x7D, 0x81, 0x2D, 0xEB,
   0x33, 0xA0, 0xF4, 0xA1, 0x39, 0x45, 0xD8, 0x98, 0xC2, 0x96, 0x4F, 0xE3, 0x42, 0xE2, 0xFE, 0x1A, 0x7F, 0x9B, 0x8E, 0xE7, 0xEB, 0x4A,
   0x7C, 0x0F, 0x9E, 0x16, 0x2B, 0xCE, 0x33, 0x57, 0x6B, 0x31, 0x5E, 0xCE, 0xCB, 0xB6, 0x40, 0x68, 0x37, 0xBF, 0x51, 0xF5]

theorem witness_CalibrationGroupServed :
    ok [meets .calRun planCalRun (tMsg (ws [1, 1])) (tS id) (fun m => m.awaits.isEmpty),
     meets (fun msg => .calSave msg true) (fun _ => planCalSave true) (tMsg []) (tS id),
     meets (fun msg => .calSave msg false) (fun _ => planCalSave false) (tMsg []) (tS id),
     meets .calStatus (fun _ t => { reply := [t.rdA calStat, t.rdA 0xF80008, t.rdA 0xF8000C, t.calRunningWord t.token].flatMap wordBytes })
       (tMsg []) (tS id),
     meets (fun msg => .selfTest msg none) (fun msg => planSelfTest msg none) (tMsg (ws [1, 1])) (tS id),
     meets (fun msg => .selfTest msg (some 2)) (fun msg => planSelfTest msg (some 2)) (tMsg (ws [1, 1])) (tS id)] = true := by
  decide +kernel

theorem witness_CalibrationEvents :
    ok [(let m := (tS (fun m => { m with awaits := [tCal] })).m
      m.awaits == [tCal] && !(runItems m.part 1 1 [tRes [1, 1]]).isEmpty && (runItems m.part 1 1 [tRes [1, 1]]).all (itemAgrees (runCal 1))),
     (!(runItems .w9d 1 1 [tRes [2001, 0]]).all (itemAgrees (runCal 1))),
     (let m := (tS (fun m => { m with awaits := [tCal] })).m
      m.fitted .a && (calRunning m.awaits).any (fun r => runCal r.2.1 == 1 && hasBit r.2.2 0) && m.get .a (calSpare 0) 30 1 = 0 &&
        m.get .a (calSpare 0) 31 1 = 0 && tabGet 0 m.cal.steps (stepKey .a 0) = 0),
     (let m := (tS (fun m => ({ m with awaits := [tCal] }).put .a (calSpare 0) 31 1 1)).m
      m.get .a (calSpare 0) 30 1 = 0 && m.get .a (calSpare 0) 31 1 = 1),
     (let m := (tS (fun m => (m.setMgt .a 25 true).setMgt .a 27 false)).m
      m.mgt .a 25 && !m.mgt .a 27 && m.get .a (calSpare 15) 30 1 = 0 && m.get .a (calSpare 15) 31 1 = 0)] = true := by decide +kernel

theorem witness_RedundancyGroupServed :
    ok [meets .ligRead planLigRead (tMsg []) (tS id), meets .faultClassRead planFaultClassRead (tMsg (ws [5])) (tS id),
     meets .faultClassSet planFaultClassSet (tMsg (ws [0xFFFF0005, 1000, 3])) (tS id),
     meets .handover (fun _ => planHandover) (tMsg []) (tS tPair)] = true := by decide +kernel

/-- A module whose Crypto Officer role is held. -/
def tOfficer (m : Mach) : Mach := { m with sec := { m.sec with held := true } }

theorem witness_SecurityGroupServed :
    ok [meets .secChallenge planSecChallenge (tMsg (ws [1])) (tS id),
     meets .secAuth planSecAuth (tMsg (ws ([1, 0] ++ List.replicate 16 0))) (tS id),
     meets .secAuth planSecAuth (tMsg (ws ([1, 0] ++ List.replicate 16 0)))
       (tS (fun m => { m with sec := { m.sec with locked := true } })) (fun m => m.sec.locked),
     meets .secCsr planSecCsr (tBuf (ws [0x102, 0x1000, 0, 512, 0]) (List.replicate 512 0)) (tS tOfficer),
     meets .secCertLoad planSecCertLoad (tBuf (ws [4, 0x1000, 0, 65, 0]) tPoint) (tS id)
       (fun m => hostBuf (tBuf (ws [4, 0x1000, 0, 65, 0]) tPoint) 4 == some tPoint && m.sec.owner.isEmpty),
     meets .secCertLoad planSecCertLoad (tBuf (ws [3, 0x1000, 0, 65, 0]) tPoint) (tS tOfficer),
     meets .secPubkeyRead planSecPubkeyRead (tMsg (ws [4])) (tS (fun m => { m with sec := { m.sec with owner := tPoint } }))
       (fun m => m.slotKey 4 == some tPoint),
     meets .secTokenRead planSecTokenRead (tMsg (ws [23])) (tS id),
     meets .secZeroise (fun _ => planSecZeroise) (tMsg []) (tS tOfficer),
     meets (fun msg => .secSelfTest msg 0) (fun _ => planSecSelfTest 0) (tMsg []) (tS id),
     meets (fun msg => .secSelfTest msg 5) (fun _ => planSecSelfTest 5) (tMsg []) (tS id) (fun m => m.inService m.token)] = true := by
  decide +kernel

/-- Bank B of side A, which it does not run, as FW_BEGIN leaves it. -/
def tBegun (m : Mach) : Mach := m.modSide .a (fun x => { x with bankB := { touched := true, len := 4096, cells := [] } })

theorem witness_FirmwareGroupServed :
    ok [meets .fwBegin planFwBegin (tMsg (ws [4096, 0])) (tS id), meets .fwData planFwData (tMsg (leBytes 8 0 ++ [1, 2, 3])) (tS tBegun),
     meets .fwVerify (fun _ => planFwVerify) (tMsg []) (tS (fun m => m.modSide .a (fun x => { x with boot := { x.boot with goodB := true } })))
       (fun m => m.fwVerdict .a == none && !m.fwSide .b),
     meets .fwVerify (fun _ => planFwVerify) (tMsg []) (tS tBegun)
       (fun m => m.fwSide .a && m.fwVerdict .a == some 1 && (m.side .a).st != .down),
     meets .fwActivate planFwActivate (tMsg (ws [0])) (tS (fun m => m.modSide .a (fun x => { x with boot := { x.boot with verB := true } }))),
     meets .fwReadStat planFwReadStat (tMsg []) (tS id)] = true := by decide +kernel

theorem witness_RestartsBeginAfresh :
    ok [meets .sysRestart planSysRestart (tMsg [0]) (tS id) (fun m => m.power.phase = .running),
     meets .sysRestart planSysRestart (tMsg [2]) (tS tPair)
       (fun m => m.power.phase = .running && sideCode m.token.other = 2 && m.inService m.token),
     meets .fwActivate planFwActivate (tMsg (ws [1])) (tS (fun m => m.modSide .a (fun x => { x with boot := { x.boot with verB := true } })))
       (fun m => m.power.phase = .running),
     (let m := (tS (fun m => m.wr .a 0x40020 1)).m
      m.get .a 0x40020 0 4 != 0 && m.power.phase = .running)] = true := by decide +kernel
theorem witness_CalibrationGroupServed_read :
    meets .calUserRead planCalUserRead (tBuf (ws [0x1000, 0, 64, 0]) (List.replicate 64 0)) (tS id) = true := by decide +kernel
theorem leNat_leBytes (n v : Nat) : leNat (leBytes n v) = v % 256 ^ n := by
  induction n generalizing v with
  | zero => simp [leBytes, leNat, Nat.mod_one]
  | succ n ih =>
    simp only [leBytes, leNat, ih, BitVec.toNat_ofNat]
    rw [show 256 ^ (n + 1) = 256 * 256 ^ n by rw [Nat.pow_succ, Nat.mul_comm], Nat.mod_mul]

/-- The user layer of one item, as a record. -/
def tRecord : List Byte := calRecord .w9d 1 0 [(calKey 1 1 0 2, 5#32)]

theorem tRecord_crc : recCrcOk tRecord = true := by
  have h1 : bytesAt tRecord 0 60 ++ bytesAt tRecord 64 (8 * numAt tRecord 12 4) =
      (leBytes 4 0x4C414357 ++ leBytes 2 1 ++ leBytes 1 (fieldOf (capId .w9d .a) 16 8) ++ leBytes 1 0 ++ leBytes 4 1 ++
        leBytes 4 1 ++ leBytes 8 Config.moduleSerial ++ leBytes 8 0 ++ leBytes 28 0) ++ (leBytes 4 (calKey 1 1 0 2) ++ wordBytes 5#32 ++ []) := rfl
  have h2 : wordAt tRecord 60 = BitVec.ofNat 32 (leNat (leBytes 4 (crc32c (
      (leBytes 4 0x4C414357 ++ leBytes 2 1 ++ leBytes 1 (fieldOf (capId .w9d .a) 16 8) ++ leBytes 1 0 ++ leBytes 4 1 ++
        leBytes 4 1 ++ leBytes 8 Config.moduleSerial ++ leBytes 8 0 ++ leBytes 28 0) ++
        (leBytes 4 (calKey 1 1 0 2) ++ wordBytes 5#32 ++ []))).toNat)) := rfl
  unfold recCrcOk
  rw [h1, h2, leNat_leBytes, Nat.mod_eq_of_lt (by have := (crc32c ((leBytes 4 0x4C414357 ++ leBytes 2 1 ++ leBytes 1 (fieldOf (capId .w9d .a) 16 8) ++ leBytes 1 0 ++ leBytes 4 1 ++
        leBytes 4 1 ++ leBytes 8 Config.moduleSerial ++ leBytes 8 0 ++ leBytes 28 0) ++
        (leBytes 4 (calKey 1 1 0 2) ++ wordBytes 5#32 ++ []))).isLt; exact this), BitVec.ofNat_toNat, BitVec.setWidth_eq, beq_self_eq_true]

theorem tRecord_good : badRecord .w9d tRecord = none := by
  have h1 : (numAt tRecord 0 4 != 0x4C414357) = false := rfl
  have h2 : (numAt tRecord 4 2 != 1) = false := rfl
  have h3 : decide (4096 < numAt tRecord 12 4 ∨ tRecord.length < 64 + 8 * numAt tRecord 12 4) = false := rfl
  have h4 : numAt tRecord 16 8 = leNat (leBytes 8 Config.moduleSerial) := rfl
  have h5 : badEntry .w9d tRecord = none := rfl
  unfold badRecord
  rw [h1, h2, h3, h4, leNat_leBytes, tRecord_crc, h5, show (256 : Nat) ^ 8 = 2 ^ 64 from rfl, bne_self_eq_false]
  rfl

theorem witness_CalibrationGroupServed_write :
    let msg := tBuf (ws [0x1000, 0, 72, 0]) tRecord
    (tS id).tick.takes ⟨0x0903, 16, 16, inCAPD, false, false⟩ msg (planCalUserWrite msg) ∧ hostBuf msg 0 = some tRecord ∧
      recEntries tRecord ≠ [] := by
  have hb : hostBuf (tBuf (ws [0x1000, 0, 72, 0]) tRecord) 0 = some tRecord := rfl
  have hp (m : Mach) (h : m.part = .w9d) : (planCalUserWrite (tBuf (ws [0x1000, 0, 72, 0]) tRecord) m).param = none := by
    unfold planCalUserWrite; rw [hb]; simp only [h]; exact tRecord_good
  refine ⟨⟨rfl, by decide +kernel, rfl, ?_, rfl⟩, hb, by intro h; cases h⟩
  unfold Mach.refusal
  rw [hp _ rfl]
  decide +kernel

/-- A change of the module's power state. -/
def tPow (f : Power → Power) (m : Mach) : Mach := { m with power := f m.power }

/-- The sequencer in a state, at a step. -/
def tSeq (st step : Nat) (m : Mach) : Mach := m.wr .a 0x40004 (BitVec.ofNat 32 (st * 2 ^ 28 + step * 2 ^ 24))

/-- PST_STAT with a sleep state, entering it or not. -/
def tSleep (st : Nat) (entering : Bool) (m : Mach) : Mach :=
  (m.wr .a 0x20004 (BitVec.ofNat 32 (st * 2 ^ 19 + b2n entering * 2 ^ 22))).wr .a 0x20020 0xFF

theorem witness_SupplyEvents :
    ok [(let m := (tS (tPow (fun p => { p with feedX1 := true, feedX2 := true }))).m
      m.supervised && m.power.feedX1),
     (let m := (tS (tPow (fun p => { p with phase := .softOff, feedX1 := true, feedX2 := false }))).m
      m.power.phase = .softOff && !m.power.feedX2),
     (let m := (tS (tPow (fun p => { p with phase := .unpowered }))).m
      m.power.phase = .unpowered && !m.power.mrLow),
     (let m := (tS (fun m => { tSeq 2 0 m with jobs := [(1, tJob)], eng := .armed, armed := 1 })).m
      m.power.phase = .running && m.eng != .faulted && m.pages.isEmpty && m.awaits.isEmpty && m.deferred.isEmpty && m.seqState = 2),
     (let m := (tS id).m
      m.power.phase != .unpowered && m.power.phase != .softOff && m.pages.isEmpty),
     (let m := (tS (tPow (fun p => { p with phase := .collapsed, holdoff := true, inputGood := true }))).m
      m.power.holdoff && m.power.inputGood && !m.power.mrLow),
     (let m := (tS (tPow (fun p => { p with phase := .collapsed, holdoff := true, inputGood := true, mrLow := true }))).m
      m.power.holdoff && m.power.inputGood && m.power.mrLow),
     -- a power-up with both feeds away
     (let m := (tS (tPow (fun p => { p with phase := .unpowered, feedX1 := false, feedX2 := false }))).m
      m.power.phase = .unpowered && !m.power.mrLow && !m.power.feedX1 && !m.power.feedX2),
     (let m := (tS (tPow (fun p => { p with phase := .inputLoss, holdoff := true, inputGood := false }))).m
      m.power.holdoff && !m.power.inputGood),
     (let m := (tS (tPow (fun p => { p with phase := .collapsed }))).m
      m.power.phase = .collapsed),
     (tS id).m.supervised,
     (let m := (tS (fun m => { m with b := tSide .starting }.modSide .a (fun x => { x with st := .starting, step := 5 }))).m
      m.part = .w9d && m.token = .a && decide (9 ≤ m.b.step) && decide (m.a.step < 9) && m.eng = .configured)] = true := by decide +kernel

theorem witness_ButtonAndPowerDownEvents :
    ok [(let m := (tS (tSeq 2 0)).m
      m.power.phase = .running && m.sleepState = 0 && m.seqState = 2 && !m.power.grace),
     (let m := (tS (fun m => m.wr .a 0x40000 0x01000000)).m
      m.power.phase = .running && m.sleepState = 0 && m.seqState = 0 && !m.isSlave && !m.isMaster && m.stepCount != 0),
     (let m := (tS (tPow (fun p => { p with phase := .softOff }))).m
      m.power.phase = .softOff && m.power.inputGood && !m.power.mrLow),
     (let m := (tS (fun m => tPow (fun p => { p with grace := true }) (tSeq 2 0 m))).m
      m.power.grace && !engLive m.eng && !m.isSlave && !m.isMaster && m.seqState = 2 && m.power.phase = .running),
     (let m := (tS (tArmed .armed false)).m
      m.power.phase = .running && m.eng != .faulted && m.pages.isEmpty && m.awaits.isEmpty && m.deferred.isEmpty),
     (let m := (tS id).m
      m.power.phase = .running && m.pages.isEmpty),
     (let m := (tS (tPow (fun p => { p with phase := .unpowered }))).m
      m.power.phase = .unpowered && m.power.phase != .manualReset),
     (let m := (tS (tPow (fun p => { p with phase := .manualReset, mrLow := true }))).m
      m.power.phase = .manualReset && m.power.inputGood && m.seqState = 0),
     (let m := (tS (fun m => tPow (fun p => { p with phase := .manualReset, mrLow := true }) (tSeq 4 0 m))).m
      m.power.phase = .manualReset && m.power.inputGood && m.seqState = 4),
     (let m := (tS (fun m => ((tSeq 3 0 m).wr .a 0x40100 1).wr .a (railMeas 0) 0)).m
      m.seqState = 3 && !m.bus.grouped && m.get .a seqStat 23 1 = 0 && m.power.phase = .running && m.curStep = 0 &&
        decide (0 ∈ m.stepRails m.curStep) && decide (0 < railsOf m.part) && !m.railOn 0 && m.get .a (railMeas 0) 0 1 = 0),
     (let m := (tS (fun m => { tPow (fun p => { p with phase := .thermalHold }) m with
          shut := { m.shut with waiting := true, recs := [List.replicate 64 0] } })).m
      m.power.phase = .thermalHold && m.shut.waiting && m.shut.recs == [List.replicate 64 0]),
     (let m := (tS (tPow (fun p => { p with phase := .thermalWait }))).m
      m.power.phase = .thermalWait && m.power.inputGood && !m.power.mrLow),
     (let m := (tS (fun m => { m.modSide .b (fun x => { x with st := .down }) with shut := { m.shut with stopped := 2 } })).m
      m.power.phase = .running && m.fitted .b && hasBit m.shut.stopped SideId.b.toNat && (m.side .b).st = .down)] = true := by decide +kernel

/-- A SYS_IDENTIFY message. -/
def tIdentify : List Byte := leBytes 4 9 ++ leBytes 2 0x0101 ++ leBytes 10 0

theorem witness_SleepEvents :
    ok [(let m := (tS (fun m => m.wr .a (0x2000C + 8) 1000)).m
      m.power.phase = .running && m.inService m.token && m.rdA (0x2000C + 4 * sleepCode .doze) != 0 && !m.busy && !m.entering &&
        !m.sleep.exiting && decide (m.sleepState < sleepCode .doze) && m.drivesRest),
     (let m := (tS (tSleep 2 true)).m
      m.entering && m.sleep.latch.isEmpty && m.sleepState = 2 && decide (m.sleepState < 3)),
     (let m := (tS (tSleep 3 true)).m
      m.entering && m.sleep.latch.isEmpty && m.sleepState = 3 && m.pages.isEmpty && m.wakes .button && m.sleepState != 0),
     (let m := (tS (tSleep 1 false)).m
      m.wakes .button && m.sleepState = 1 && !m.entering && !m.sleep.exiting && m.sleep.latch.isEmpty && m.wakes .ethernet && m.fitted .a),
     (let m := (tS (tSleep 3 false)).m
      m.wakes .i2c && m.sleepState = 3 && !m.entering && !m.sleep.exiting),
     (let m := (tS (fun m => { tSleep 1 false m with sleep := { m.sleep with exiting := true, latch := [.button] } })).m
      m.sleep.exiting && m.sleepState = 1 && m.sleep.latch == [.button]),
     (let m := (tS (fun m => (m.wr .a (ringPage 0 + 8) 256).wr .a (ringPage 0 + 0xC) 0x80000000)).m
      m.bar4On .a && m.sleepState = 0 && m.doorbellOk .a 0 (5 % 65536) && !isRecordRing 0),
     (let m := (tS id).m
      m.bar4On .a && m.sleepState = 0 && !m.doorbellOk .a 0 (5 % 65536)),
     (let m := (tS (fun m => (m.wr .a 0x20004 0x00080000).wr .a 0x20020 0)).m
      m.bar4On .a && m.sleepState != 0 && !m.wakes (.doorbell .a 0 5)),
     (let m := (tS id).m
      m.i2cSide 0x58 = none && m.i2cSide 0x50 == some .a && m.droneServes .a && decide (16 ≤ tIdentify.length ∧ 16 + numAt tIdentify 8 2 ≤ tIdentify.length) && m.sleepState = 0 &&
        badHeader tIdentify = none && cmdTable.any (fun c => c.1 == numAt tIdentify 4 2) && m.flights.all (fun f => f.tag != numAt tIdentify 0 4) &&
        decide (m.tagVerdict (numAt tIdentify 4 2) (msgOf .a .i2c tIdentify) = .new) &&
        decide (m.tagVerdict (numAt tIdentify 4 2) (msgOf .a .udp tIdentify) = .new)),
     (let m := (tS (fun m => m.wr .a 0x20004 0x80000000)).m
      decide (m.getA 0x20004 28 2 < m.getA 0x20004 30 2)),
     (let m := (tS (fun m => m.wr .a 0x20004 0xA0000000)).m
      decide (m.getA 0x20004 30 2 ≤ m.getA 0x20004 28 2 ∧ m.getA 0x20004 26 2 < m.getA 0x20004 30 2))] = true := by decide +kernel

theorem witness_ThermalEvents :
    ok [(let m := (tS (fun m => m.wr .a (thmSense 0) 3)).m
      m.inService m.token && m.coreHot),
     (let m := (tS (fun m => m.wr .a 0x20004 0x01000000)).m
      m.inService m.token && !m.coreHot && decide (0 < m.getA 0x20004 24 2)),
     (let m := (tS id).m
      m.inService .a && thermFitted m.part 0 && !bitOf (m.rd .a (thmSense 0)) 4 && m.judges .a 0 &&
        (List.range 3).all (fun i => !m.atLevel .a 0 i 400)),
     (let m := (tS id).m
      m.judges .a 0 && m.atLevel .a 0 0 810 && !m.atLevel .a 0 1 810 && !m.atLevel .a 0 2 810 && !bitOf (m.rd .a (thmSense 0)) 0),
     (let m := (tS id).m
      m.inService .a && thermFitted m.part 32 && hasBit m.shut.fitTest 0),
     !thermFitted .w7s 37] = true := by decide +kernel

/-- A pair with station 0 in an armed job, the station matched where `on` is set. -/
def tMatch (on : Bool) (m : Mach) : Mach :=
  let t := tPair { m with eng := .armed, armed := 1, jobs := [(1, tJob)], ligUp := true, lanes := 16, ligKey := true }
  (t.modStn 0 (fun x => { x with job := 1 })).wrB (ligStn 0) (if on then 0x80000000 else 0x40000000)

/-- Side B joins, at a step of R586, and a region is allocated. -/
def tJoin (step : Nat) (m : Mach) : Mach :=
  { (tPair m).modSide .b (fun x => { x with st := .joining }) with regions := [(3, ⟨firmwareEnd, 65536⟩)] }.put .a 0xFC001C 28 4 step

/-- Both sides past step 9 with the same firmware in their banks. -/
def tStarting (m : Mach) : Mach :=
  [SideId.a, .b].foldl (fun t d => t.modSide d (fun _ => { tSide .alone with bankA := { touched := true, len := 0, cells := [] } })) m

/-- A page of job 1 whose line 5 station 0 has at grid line 100. -/
def tGrid : Page := { tPage with prog := [(0, { offset := 0, grid := some 95, made := 0, judged := 0, next := 0, bad := [], blankFrom := none, started := false, ended := false })] }

theorem witness_LigatureEvents :
    ok [(let m := (tS tStarting).m
      m.part = .w9d && m.a.step != 0 && m.b.step != 0 && m.fwRelease .a (m.runs .a) = m.fwRelease .b (m.runs .b) &&
        m.fwField .a (m.runs .a) 1 = m.fwField .b (m.runs .b) 1 && decide (9 ≤ m.a.step ∧ 9 ≤ m.b.step) && !m.mgt m.token 29),
     (let m := (tS (tMatch true)).m
      m.part = .w9d && m.ligUp && m.lanes = 16 && m.inService m.token && !m.lasting 0x17 0 0 &&
        decide ((m.faultInst 0x17 0 0).count + 1 < (m.faultSettings 0x17).thresh)),
     (let m := (tS (tMatch true)).m
      m.compares 0 && m.matched 0 && m.redund.faultAt.isEmpty && !m.lasting 0x16 0 0 &&
        decide ((m.faultInst 0x16 0 0).count + 1 < (m.faultSettings 0x16).thresh)),
     (let m := (tS (tMatch false)).m
      m.compares 0 && !m.matched 0),
     -- a line whose signature the state holds
     (let m := (tS (fun m => { tMatch true m with pages := [(1, tGrid)] })).m
      m.compares 0 && m.matched 0 && m.linePages 0 100 == [(1, 5)] && m.redund.faultAt.isEmpty && !m.lasting 0x16 0 0),
     (let m := (tS (tMatch true)).m
      m.shadowed && m.inJob 0),
     (let m := (tS (fun m => { m with faults := [(faultKey 0x16 0 0, ⟨1, false⟩)] })).m
      !m.lasting 0x16 0 0 && decide (0 < (m.faultInst 0x16 0 0).count)),
     (let s := tS (tJoin 1)
      (s.m.side s.m.token.other).st = .joining && s.memOk && s.m.getA 0xFC001C 28 4 = 1),
     (let s := tS (tJoin 2)
      (s.m.side s.m.token.other).st = .joining && s.memOk && s.m.getA 0xFC001C 28 4 = 2 && (List.range 16).all (fun i => s.m.mgt s.m.token.other i)),
     (let s := tS (tJoin 3)
      (s.m.side s.m.token.other).st = .joining && s.memOk && s.m.getA 0xFC001C 28 4 = 3 && sparseWf resetOf (s.m.side s.m.token).regs)] = true := by
  decide +kernel

theorem witness_SideEvents :
    ok [(let m := (tS (tMatch true)).m
      m.inService .a && m.redund.misAt.isEmpty && m.token = .a),
     (let m := (tS (tMatch true)).m
      m.inService .b && m.redund.misAt.isEmpty && m.token != .b && m.moving = none && m.power.phase = .running),
     (let m := (tS (tMatch true)).m
      m.token = .a && m.inService .a && m.moving = none && (m.side SideId.a.other).st = .shadow && !(m.side SideId.a.other).faultN),
     (let m := (tS (fun m => { tMatch true m with moving := some (.a, true) })).m
      m.part = .w9d && m.moving == some (m.token, true) && m.shadowed && m.allMatched && m.runningStns.all m.isDark),
     (let m := (tS (fun m => { tMatch true m with moving := some (.a, false) })).m
      m.moving == some (m.token, false) && m.shadowed && m.allMatched && m.runningStns.all m.isDark && m.inJob 0 && !(m.stnOf 0).sweepOpen && (m.stnOf 0).ledLine = none),
     (let m := (tS (fun m => { tMatch true m with redund := { m.redund with lostBy := some .b }, pages := [(1, tGrid)] })).m
      m.redund.lostBy.isSome && m.linePages 0 100 == [(1, 5)] && tabFind m.pages 1 == some tGrid),
     (let m := (tS (fun m => { m with redund := { m.redund with lostBy := some .b } })).m
      m.redund.lostBy == some .b && m.fitted .b)] = true := by decide +kernel

/-- An unsigned checkpoint of side A. -/
def tCkpt : ChainEntry := { bytes := List.replicate 9 0 ++ [1] ++ List.replicate 22 0, ring := 48, isCkpt := true, signed := false }

theorem witness_SecurityAndCheckpointEvents :
    ok [(let m := (tS id).m
      m.fitted .a && m.power.alwaysOn),
     (let m := (tS (fun m => { m with records := { m.records with ckptTimer := true, uncovered := 3, next := 4 } })).m
      m.records.ckptTimer && decide (0 < m.records.uncovered)),
     !(tS id).m.records.ckptTimer,
     (let m := (tS (fun m => { m with records := { m.records with entries := [(4, tCkpt)], next := 5 } })).m
      m.unsigned == some (4, tCkpt) && !tCkpt.freed && !(m.side m.token).core.error && m.inService m.token && decide ((m.side m.token).core.lastSeq < 4) &&
        decide (numAt tCkpt.bytes 9 1 = sideCode m.token))] = true := by decide +kernel

/-- A good token of station 0 at place 0. -/
def tToken (f : Consumable → Consumable) (m : Mach) : Mach :=
  m.modToken 0 (fun x => f { x with state := 1, cert := ⟨1, 1, 5, 100, 10⟩, count := 50 })

theorem witness_ConsumableEvents :
    ok [(let m := (tS (tToken id)).m
      decide (0 < 4 * stationsOf m.part) && m.inService m.token && (m.tokenOf 0).state = 1 && !(m.tokenOf 0).failed &&
        authState 0 ⟨1, 1, 5, 100, 10⟩ true 0 true != 1),
     (let m := (tS (tToken (fun x => { x with asked := some 5 }))).m
      (m.tokenOf 0).asked == some 5 && (m.tokenOf 0).count = 45 + 5),
     (let m := (tS (tToken (fun x => { x with query := true }))).m
      (m.tokenOf 0).query && (m.tokenOf 0).asked = none && decide ((m.tokenOf 0).retries < 3)),
     (let m := (tS (tToken (fun x => { x with query := true, retries := 3 }))).m
      (m.tokenOf 0).query && decide (3 ≤ (m.tokenOf 0).retries)),
     (let m := (tS (fun m => tToken id (tArmed .armed false m))).m
      engLive m.eng && (m.tokenOf 0).state != 0 && (m.tokenOf 0).state != 7),
     (let m := (tS (tSeq 2 0)).m
      m.seqState = 2 && m.inService m.token && hasBit 1 0 && (m.tokenOf 0).state = 0 && !(m.tokenOf 0).query && !hasBit 1 1 &&
        !engLive m.eng)] = true := by decide +kernel

/-- A ring of side A, enabled, of 16 entries, with HEAD 0 and a TAIL. -/
def tRing (n tail : Nat) (m : Mach) : Mach := (m.wr .a (ringPage n + 0xC) 0x80000000).wr .a (ringPage n + 0x14) (BitVec.ofNat 32 tail)

/-- Side A with MSI-X enabled, its vectors unmasked, and event 5 pending and masked. -/
def tMsix (pba : Word) (m : Mach) : Mach :=
  m.modSide .a (fun x => { x with
    evt := { x.evt with pend := 32#128, mask := BitVec.allOnes 128, vec := [(0, ⟨1, true⟩)], route := [(5, 0)], coal := [] }
    msix := { enable := true, funcMask := false, table := [(0, ⟨0x1000, 7, false⟩)], pba := pba } })

theorem witness_HostLinkEvents :
    ok [(let m := (tS (tMsix 1)).m
      m.fitted .a && (m.side .a).st != .down && (m.side .a).endpoint && bitOf (m.side .a).msix.pba 0 && (m.side .a).msix.enable &&
        !(m.side .a).msix.funcMask && !((m.side .a).msix.entry 0).masked && (m.side .a).linkUp && m.bar4On .a),
     -- what the cables allow, and L1 with the host's leave and without
     decide (8 ≤ cableWidth true false ∧ cableWidth true false < 16),
     (let m := (tS (fun m => m.modSide .a (fun x => { x with aspm := true }))).m
      m.fitted .a && (m.side .a).linkUp && (m.side .a).aspm && !engLive m.eng),
     (let m := (tS (fun m => m.modSide .a (fun x => { x with aspm := false }))).m
      m.fitted .a && !(m.side .a).aspm),
     (let m := (tS (fun m => (tMsix 1 m).modSide .a (fun x => { x with d3 := true }))).m
      m.fitted .a && (m.side .a).d3 && bitOf (m.side .a).msix.pba 0 && (m.side .a).linkUp),
     !engLive (tS id).m.eng, engLive (tS (tArmed .armed false)).m.eng,
     (let m := (tS id).m
      m.bar0On .a (encBase 0) && m.bar0On .a 0x408000 && decide (m.get .a 0x408000 0 15 < 24080) && m.bar0On .a 0x100000 &&
        (List.range 32).any (fun j => !eventAbsent m.part j)),
     (let m := (tS (tMsix 0)).m
      (m.side .a).evt.mask.getLsbD (32 * 0 + 5) && (m.side .a).evt.pend.getLsbD (32 * 0 + 5) &&
        decide (fieldOf ((m.side .a).evt.coalOf ((m.side .a).evt.routeOf (32 * 0 + 5))) 0 8 ≤ 1) &&
        (m.side .a).mayMsg ((m.side .a).evt.routeOf (32 * 0 + 5)) && ((m.side .a).evt.vecOf 0).timing && (m.side .a).mayMsg 0),
     (let m := (tS (fun m => m.modSide .a (fun x => { x with evt := { x.evt with vec := [(0, ⟨1, true⟩)] } }))).m
      ((m.side .a).evt.vecOf 0).timing && !(m.side .a).mayMsg 0),
     (let m := (tS (fun m => m.wr .a (bar4 + 0x40018) 0x80000000)).m
      m.bar4On .a && (m.side .a).linkUp && bitOf (m.rd .a (bar4 + 0x40018)) 31)] = true := by decide +kernel

theorem witness_RegisterWriteActs :
    ok [decide (barSize .bar0 < 0xFFFFFC + 4 * [(15, 0#32), (15, 0#32)].length),
     (let m := (tS id).m
      m.bar0On .a 0x30018 && !regAbsent m.part 0x30018 && (rowOf 0x30018).any (fun r => r.rwl = 0 && r.clr = 0) && !stageReg 0x30018),
     (let m := (tS id).m
      m.bar0On .a 0x40100 && m.seqState = 0),
     (let m := (tS (tSeq 2 0)).m
      m.bar0On .a 0x40100 && m.seqState != 0 && (m.rd .a (0x40100 + 4 * 15) ^^^ 0xFFFFFF) &&& 0x00FFFFFF != 0),
     (let m := (tS id).m
      m.bar0On .a 0x100000 && badAccess 0x30018 [(3, 0)] && badAccess 0x30019 [(15, 0)] && m.fitted .a && (m.side .a).st != .down &&
        !(m.side .a).d3 && !isCfg .bar0 && (m.side .a).endpoint)] = true := by decide +kernel

/-- A SYS_IDENTIFY message on command ring 0, whose LEN is `len`. -/
def tRaw (len : Nat) : List Byte := leBytes 4 9 ++ leBytes 2 0x0101 ++ [0, 0] ++ leBytes 2 len ++ leBytes 6 0

/-- The flight of that message, fetched by side B. -/
def tFlight : Flight := { tag := 9, side := .b, via := .ring 0, opcode := 0x0101, epoch := 0, digest := 0, begun := false }

theorem witness_RingEvents :
    ok [(let m := (tS id).m
      m.bar4On .a && !m.ringOn .a 63 && !ringToHost 0 && !m.mayFetch .a 0 && m.sleepState = 0),
     (let m := (tS (tRing 0 2)).m
      m.bar4On .a && m.sleepState = 0 && m.ringOn .a 0 && m.doorbellOk .a 0 ((3#32).toNat % 65536) && decide (0 < m.ringHeld .a 0)),
     (let m := (tS (fun m => tRing 8 0 (tRing 0 2 m))).m
      m.mayFetch .a 0 && decide (0 < m.ringHeld .a 0) && decide (numAt (tRaw 0) 8 2 ≤ 8176) && decide (16 ≤ 64 * m.ringSize .a 0) &&
        decide (ceilDiv 16 64 ≤ m.ringHeld .a 0) && badHeader (tRaw 0) = none &&
        decide (m.tagVerdict (numAt (tRaw 0) 4 2) (msgOf .a (.ring 0) (tRaw 0)) = .new) && m.flights.isEmpty &&
        cmdTable.any (fun c => c.1 == numAt (tRaw 0) 4 2)),
     -- ring 1 has its turn before ring 0
     (let m := (tS (fun m => (tRing 9 0 (tRing 1 2 m)).modSide .a (fun x => { x with lastRing := 0 }))).m
      decide ((1 + 7 - (m.side .a).lastRing % 8) % 8 < (0 + 7 - (m.side .a).lastRing % 8) % 8) && m.fetchable .a 1 &&
        decide (0 < m.ringHeld .a 1)),
     decide (8176 < numAt (tRaw 8177) 8 2),
     (let m := (tS (fun m => { tPair m with flights := [tFlight] })).m
      m.mgt .b 29 && m.token != .b && m.flights == [] ++ tFlight :: [] && tFlight.tag = numAt (tRaw 0) 0 4 && tFlight.side = .b &&
        tFlight.via = .ring 0 && !tFlight.begun)] = true := by decide +kernel

/-- A codeword with sixteen wrong symbols, which no decoder corrects, and one with a single wrong symbol, at a codeword's index. -/
def tBad (k : Nat) : SymErrs := [(64 * k, (List.range 16).map (fun i => (i, BitVec.ofNat 8 (i * i + 1))))]

/-- The same with one wrong symbol. -/
def tOne (k : Nat) : SymErrs := [(64 * k, [(5, 1)])]

theorem witness_ImageMemoryEvents :
    ok [(let s := tS id
      (s.m.side .a).endpoint && !(s.m.side .a).d3 && soundB s .a && decide (firmwareEnd + 16 ≤ memSize s.m.part) && !s.m.mgt .a 29),
     (let s := tS tPair
      (s.m.side .a).endpoint && !(s.m.side .a).d3 && soundB s .a && soundB s .b && s.m.mgt .a 29),
     decide (0x1000 + 16 ≤ firmwareEnd), !((tS (fun m => m.modSide .a (fun x => { x with endpoint := false }))).m.side .a).endpoint,
     (let s := tS id
      decide (firmwareEnd % 64 + 8 ≤ 64) && soundB s .a && s.m.fitted .a && (s.m.side .a).st != .down &&
        decide (rsDecode (symAdd [] (errsAt (tBad (firmwareEnd / 64)) (firmwareEnd / 64))) = none)),
     (tS (fun m => m.wr .a 0x300000 0)).m.get .a 0x300000 0 1 = 0,
     (let s := tS (fun m => m.modImc .a (fun i => { i with scrub := firmwareEnd }))
      s.m.get .a 0x300000 0 1 = 1 && soundB s .a && (s.m.side .a).imc.scrub % 64 = 0 &&
        decide ((s.m.side .a).imc.scrub + 64 < memSize s.m.part) && (errsAt [] ((s.m.side .a).imc.scrub / 64)).isEmpty && s.m.token = .a &&
        (match rsDecode (symAdd [] (errsAt (tOne (firmwareEnd / 64)) ((s.m.side .a).imc.scrub / 64))) with
          | some corr => !corr.isEmpty
          | none => false))] = true := by decide +kernel

/-- Channel 0 of side A, changed. -/
def tDma (f : DmaCh → DmaCh) (m : Mach) : Mach := m.modDma .a 0 f

/-- A channel that runs. -/
def tRuns (f : DmaCh → DmaCh) : State := tS (tDma (fun c => f { c with state := .running }))

/-- `dmaRuns` as a test. -/
def runsB (m : Mach) (d : SideId) (ch : Nat) : Bool :=
  decide (ch < 32) && m.fitted d && (m.side d).st != .down && ((m.side d).dmaOf ch).state = .running && ((m.side d).dmaOf ch).move = none &&
    !((m.side d).dmaOf ch).progImage

theorem runs_of {m : Mach} {d : SideId} {ch : Nat} (h : runsB m d ch = true) : m.dmaRuns d ch := by
  simp only [runsB, Bool.and_eq_true, decide_eq_true_eq, bne_iff_ne, ne_eq, Bool.not_eq_true'] at h
  exact ⟨h.1.1.1.1.1, h.1.1.1.1.2, h.1.1.1.2, h.1.1.2, h.1.2, h.2⟩

/-- A 32-byte instruction that begins with these bytes. -/
def tRawI (bs : List Byte) : List Byte := bs ++ List.replicate (32 - bs.length) 0

/-- A MOVE of 16 bytes: its flags, spaces, source and destination. -/
def tMoveI (flags src dst a b : Nat) : List Byte :=
  tRawI ([1, BitVec.ofNat 8 flags, BitVec.ofNat 8 src, BitVec.ofNat 8 dst] ++ leBytes 4 16 ++ leBytes 8 a ++ leBytes 8 b)

theorem witness_DmaInstructions :
    ok [runsB (tRuns id).m .a 0, decide ((((tRuns id).m.side .a).dmaOf 0).steps + 1 < 4096),
     decide ((tRawI [0]).length = 32 ∧ numAt (tRawI [0]) 0 1 = 0),
     (let raw := tRawI ([2, 1, 0, 0] ++ leBytes 4 3 ++ leBytes 4 32)
      raw.length = 32 && numAt raw 0 1 = 2 && loopOk raw &&
        decide ((if hasBit (numAt raw 1 1) 0 then (((tRuns id).m.side .a).dmaOf 0).l1 else (((tRuns id).m.side .a).dmaOf 0).l0).getD
          (numAt raw 4 4) = 3)),
     (let raw := tRawI ([2, 0, 0, 0] ++ leBytes 4 1 ++ leBytes 4 32)
      numAt raw 0 1 = 2 && loopOk raw && numAt raw 4 4 = 1 && !hasBit (numAt raw 1 1) 0),
     (let raw := tRawI ([5, 3, 0, 0, 0, 0, 0, 0] ++ leBytes 8 64)
      numAt raw 0 1 = 5 && jumpOk raw && hasBit (numAt raw 1 1) 0 && hasBit (numAt raw 1 1) 1),
     (let raw := tRawI ([5, 0, 0, 0] ++ leBytes 4 32)
      numAt raw 0 1 = 5 && jumpOk raw && !hasBit (numAt raw 1 1) 0 && decide (0 ≤ ((((tRuns id).m.side .a).dmaOf 0).pc : Int) + intAt raw 4 4)),
     (let raw := tRawI ([4, 7, 1, 0, 1, 0, 0, 0] ++ leBytes 8 0x1000)
      numAt raw 0 1 = 4 && signalOk raw && hasBit (numAt raw 1 1) 0 && hasBit (numAt raw 1 1) 1 && hasBit (numAt raw 1 1) 2 &&
        decide ((((tRuns id).m.side .a).dmaOf (numAt raw 2 1)).tokens < 65535)),
     (let raw := tRawI ([3, 0, 0, 0] ++ leBytes 4 2)
      numAt raw 0 1 = 3 && waitOk raw),
     (let raw := tRawI [6, 1]
      numAt raw 0 1 = 6 && decide (numAt raw 1 1 < 2) && numAt raw 2 30 = 0 &&
        (((tRuns (fun c => { c with complete := some 0x1000 })).m.side .a).dmaOf 0).complete == some 0x1000),
     (let s := tRuns (fun c => { c with steps := 4095 })
      runsB s.m .a 0 && decide (4096 ≤ ((s.m.side .a).dmaOf 0).steps + 1)),
     decide (6 < numAt (tRawI [7]) 0 1), !moveOk (tRawI [1]),
     (let raw := tMoveI 0 0 0 0x1000 0x2000
      numAt raw 0 1 = 1 && moveOk raw && numAt raw 2 1 = 0 && numAt raw 3 1 = 0 && !hasBit (numAt raw 1 1) 0),
     (let raw := tMoveI 0 0 1 0x1000 0x2000
      moveOk raw && numAt raw 2 1 = 0 && numAt raw 3 1 = 1 && !hasBit (numAt raw 1 1) 1 && decide (numAt raw 16 8 < firmwareEnd)),
     (let raw := tMoveI 0 0 2 0x1000 5
      moveOk raw && numAt raw 3 1 = 2 && !hasBit (numAt raw 1 1) 1 && decide (stationsOf .w9s ≤ numAt raw 16 8 ∨ stationsOf .w7s ≤ numAt raw 16 8)),
     (let raw := tMoveI 0 1 0 firmwareEnd 0x2000
      moveOk raw && numAt raw 2 1 = 1 && numAt raw 3 1 = 0 && numAt raw 1 1 = 0 && decide (firmwareEnd ≤ numAt raw 8 8) &&
        decide (numAt raw 8 8 + numAt raw 4 4 ≤ memSize .w9d) && decide (numAt raw 16 8 % 64 + numAt raw 4 4 ≤ 64) &&
        soundB (tRuns id) .a)] = true := by decide +kernel

/-- A MOVE of 16 bytes in progress, into a destination space, with bytes that wait. -/
def tMv (space dst : Nat) (pending : List Byte) : DmaMove :=
  { src := 0x1000, dst := dst, srcImage := false, dstSpace := space, length := 16, halfIrq := false, fullIrq := true, pending := pending,
    asked := 16, bad := none }

/-- A job entry whose program begins at an address. -/
def tEntry (at_ : Nat) : List Byte := leBytes 8 5 ++ leBytes 8 at_ ++ List.replicate 48 0

theorem witness_DmaEvents :
    ok [(let m := (tS (fun m => tRing 16 1 (m.wr .a (dmaBase 0) 0x80000000))).m
      m.fitted .a && bitOf (m.rd .a (dmaBase 0)) 31 && m.ringOn .a 16 && ((m.side .a).dmaOf 0).state = .idle && decide (0 < m.ringHeld .a 16) &&
        (m.side .a).st != .down && jobEntryOk (tEntry 64) && !jobEntryOk (tEntry 65)),
     (let c := ((tS (tDma (fun c => { c with state := .waiting, need := 2, tokens := 2 }))).m.side .a).dmaOf 0
      c.state = .waiting && decide (c.need ≤ c.tokens)),
     (let c := ((tS (tDma (fun c => { c with state := .waiting, need := 2, tokens := 1 }))).m.side .a).dmaOf 0
      c.state = .waiting && decide (c.tokens < c.need)),
     (let m := (tS (fun m => (tDma (fun c => { c with tokens := 65535 }) m).wr .a (dmaBase 0 + 8) 0x00010000)).m
      m.get .a (dmaBase 0 + 8) 16 16 != 0 && ((m.side .a).dmaOf 0).tokens = 65535),
     (let m := (tS (fun m => m.wr .a (dmaBase 0 + 8) 0x00010000)).m
      m.get .a (dmaBase 0 + 8) 16 16 != 0 && decide (((m.side .a).dmaOf 0).tokens < 65535)),
     (let c := ((tRuns (fun c => { c with move := some (tMv 0 0x40 []), bytes := 16 })).m.side .a).dmaOf 0
      c.move == some (tMv 0 0x40 []) && decide ((tMv 0 0x40 []).length ≤ c.bytes)),
     (let s := tRuns (fun c => { c with move := some (tMv 0 0x40 []) })
      ((s.m.side .a).dmaOf 0).move == some (tMv 0 0x40 []) && ((s.m.side .a).dmaOf 0).state = .running && ((s.m.side .a).dmaOf 0).bytes = 0 &&
        decide ((tMv 0 0x40 []).dst % 64 + 16 ≤ 64) && decide (((s.m.side .a).dmaOf 0).bytes < 16) && ((s.m.side .a).dmaOf 0).hostWait),
     (let s := tRuns (fun c => { c with move := some (tMv 1 firmwareEnd []) })
      ((s.m.side .a).dmaOf 0).move == some (tMv 1 firmwareEnd []) && decide ((tMv 1 firmwareEnd []).dst % 64 + 16 ≤ 64) &&
        decide (firmwareEnd + 16 ≤ memSize s.m.part) && !s.m.mgt .a 29 && soundB s .a),
     (let s := tS (fun m => (tDma (fun c => { c with state := .blocked, bytes := 8, move := some (tMv 2 0 (List.replicate 8 1)) }) m).modDec 0
        (fun x => { x with state := .decode }))
      ((s.m.side .a).dmaOf 0).state = .blocked && (tMv 2 0 (List.replicate 8 1)).pending.length = 16 - ((s.m.side .a).dmaOf 0).bytes &&
        decide (((s.m.side .a).dmaOf 0).bytes % 64 + 8 ≤ 64) && decide ((tabGet [] (s.m.side .a).feeds 0).length + 8 ≤ 262144) &&
        !s.m.mgt .a 29 && (s.m.decOf 0).state = .decode),
     -- a read that fails: in a MOVE that runs, and in one that a full feed blocks, with a beat before it and without
     (let s := tS (tDma (fun c => { c with state := .blocked, bytes := 8, move := some { tMv 2 0 (List.replicate 4 1) with length := 12 + 8 } }))
      let c := (s.m.side .a).dmaOf 0
      c.hostWait && c.move.any (fun mv => decide ((mv.pending.take (0x100C - mv.src - c.bytes)).length < min (64 - c.bytes % 64) (mv.length - c.bytes)))),
     (let s := tS (tDma (fun c => { c with state := .blocked, bytes := 8, move := some { tMv 2 0 (List.replicate 60 1) with length := 100 } }))
      let c := (s.m.side .a).dmaOf 0
      c.hostWait && c.move.any (fun mv => decide (min (64 - c.bytes % 64) (mv.length - c.bytes) ≤ (mv.pending.take (0x1044 - mv.src - c.bytes)).length))),
     (let m := (tS id).m
      !((m.side .a).dmaOf 0).hostWait && ((m.side .a).dmaOf 0).move = none && (m.side .a).st != .down),
     (((tS (tDma (fun c => { c with state := .stopped }))).m.side .a).dmaOf 0).state = .stopped] = true := by decide +kernel

/-- A raw plane of one line of 64 dots. -/
def tRaw1 : Plane := { region := 3, off := firmwareEnd, codec := false, width := 64, lines := 1, bytes := 80 }

/-- An encoding of that plane. -/
def tEnc : EncodeJob := { tag := 9, src := tRaw1, region := 3, start := firmwareEnd + 4096, limit := firmwareEnd + 65536, cfg := 0x00100000 }

/-- A panel of a page: its state, its index 0 and template 0. -/
def tPanel (c : Compose) : Panel :=
  { index := 0, x := 0, y := 0, height := 100, tpl := 0, rejOut := 255, flags := 0, final := false, taken := [], feed := none
    feedMiss := false, compose := c, missed := 0, failed := [], doubt := 0, data := [] }

/-- A module with job 1 armed and one page in flight, at a position, with one panel; its template set is `t`. -/
def tPan (c : Compose) (pos : Int) (t : List Byte) (m : Mach) : Mach :=
  { tArmed .armed false m with tpls := [(2, ⟨t, false⟩)], pages := [(1, { tPage with tplSet := 2, pos := pos, panels := [tPanel c] })] }

/-- The template set of `tTpl`, its field on station 0. -/
def tTplOn : List Byte := tTpl.set (fieldAt tTpl 0 + 2) 1

/-- The same with a field of 65 535 by 65 535 dots. -/
def tTplBig : List Byte := ([6, 7, 12, 13].foldl (fun t i => t.set (fieldAt tTpl 0 + i) 255) tTplOn)

/-- A page of a decoder's queue. -/
def tDec : DecPage := { key := 1, pageNo := 1, plane := 4, src := some { tRaw1 with lines := 5 }, start := 0, lines := 5 }

/-- Station 0's decoder in a state. -/
def tDecSt (st : DecState) (f : Decoder → Decoder) (m : Mach) : Mach := m.modDec 0 (fun x => f { x with state := st, queue := [tDec] })

/-- A codec header with its CRC. -/
def tHead : List Byte :=
  let h := [0xF8, 3, 1, 0] ++ leBytes 4 0 ++ leBytes 4 64 ++ List.replicate 4 (0 : Byte) ++ leBytes 4 1 ++ List.replicate 8 0
  h ++ wordBytes (crc32c h)

theorem witness_ImagePathEvents :
    ok [(let s := tS (fun m => { m with encodes := [tEnc], awaits := [⟨.planeEncode, 0x0404, { tMsg [] with tag := 9 }, false⟩] })
      s.m.encodes == [tEnc] && s.m.inService s.m.token && !s.m.inService s.m.token.other && s.m.awaits.any (fun w => w.msg.tag = tEnc.tag) &&
        soundB s .a && decide (tRaw1.off + tRaw1.bytes ≤ memSize s.m.part) && decide (tEnc.limit ≤ memSize s.m.part) &&
        decide (tEnc.start + (encodePlane tEnc.cfg tRaw1.width (rawLines tRaw1 ((s.img.side .a).bytes tRaw1.off tRaw1.bytes))).length ≤ tEnc.limit)),
     (let m := (tS (tPan .queued 0 tTplOn)).m
      (m.composeOf .queued).map (fun c => (c.1, c.2.2)) == [(1, 0)] && (m.panelOf 1 0).any (fun kp => kp.2 == tPanel .queued &&
        decide (m.poolUsed + kp.2.area (m.tplBytes kp.1.tplSet) ≤ poolBits))),
     (let m := (tS (tPan .queued 0 tTplBig)).m
      (m.composeOf .queued).map (fun c => (c.1, c.2.2)) == [(1, 0)] && (m.panelOf 1 0).any (fun kp =>
        decide (poolBits < m.poolUsed + kp.2.area (m.tplBytes kp.1.tplSet)))),
     (let m := (tS (tPan .composing 100000 tTpl)).m
      (m.composeOf .composing).map (fun c => (c.1, c.2.2)) == [(1, 0)] && (m.panelOf 1 0).any (fun kp =>
        (m.lateOf kp.1 (m.encPos (((tabFind m.jobs kp.1.job).map Job.encoder).getD 0))).isEmpty)),
     (let m := (tS (tPan .composing 0 tTplOn)).m
      (m.composeOf .composing).map (fun c => (c.1, c.2.2)) == [(1, 0)] && (m.panelOf 1 0).any (fun kp =>
        !(m.lateOf kp.1 (m.encPos (((tabFind m.jobs kp.1.job).map Job.encoder).getD 0))).isEmpty)),
     (let m := (tS id).m
      (m.composeOf .queued).isEmpty && (m.composeOf .composing).isEmpty && (m.decOf 0).page = none && (m.decOf 0).state != .seek && m.encodes.isEmpty),
     (let s := tS (tDecSt .decode id)
      (s.m.decOf 0).page == some tDec && (s.m.decOf 0).state = .decode && !(s.m.decOf 0).blanked && !(s.m.decOf 0).ended &&
        decide ((s.m.decOf 0).line < tDec.lines) && s.m.pages.isEmpty && soundB s .a && !s.m.inService s.m.token.other && s.m.isDry tDec),
     (let s := tS (fun m => { tDecSt .decode id m with pages := [(1, tGrid)] })
      (s.m.decOf 0).page == some tDec && tGrid.panels.isEmpty && (tabFind s.m.pages tDec.key).any (fun k => !k.skipped) &&
        decide ((s.m.stnOf 0).buffer.length < 128 / s.m.fine 0) && decide (s.m.judgedOf 0 tDec.key < ((s.m.decOf 0).line + 1) * s.m.fine 0)),
     (let m := (tS (tDecSt .decode (fun x => { x with line := 5 }))).m
      (m.decOf 0).page == some tDec && decide (tDec.lines ≤ (m.decOf 0).line) && !(m.decOf 0).fromFeed),
     (let m := (tS (tDecSt .idle id)).m
      (m.decOf 0).queue == [tDec] && (m.decOf 0).state = .idle && (m.decOf 0).ready && m.decodeDue 0 tDec && !m.shadowed),
     (let m := (tS (fun m => { tDecSt .idle id m with pages := [(1, tGrid)] })).m
      !m.decodeDue 0 { tDec with start := 100000 }),
     (let m := (tS (fun m => (tDecSt .seek id m).modSide .a (fun x => { x with feeds := [(0, 7 :: tHead)] }))).m
      (m.decOf 0).state = .seek && m.fitted m.token && seekHit ((m.feedOf 0).drop ((m.feedOf 0).length - (seekDrop (m.feedOf 0)).length)))] = true := by
  decide +kernel

/-- Job 1 armed with station 0 in laser mode, its synthesizer in a state. -/
def tLas (sync : Nat) (f : Station → Station) (m : Mach) : Mach :=
  (((tArmed .armed false m).wr .a (pxcBase 0) 0x40000800).wr .a (pxcStat 0) (BitVec.ofNat 32 (sync * 2 ^ 29))).modStn 0
    (fun x => f { x with job := 1 })

theorem witness_StationEvents :
    ok [(let m := (tS (tLas 1 (fun x => { x with goodRun := 255 }))).m
      m.tracking && m.inJob 0 && m.isLaser 0 && m.pages.isEmpty && !(m.stnOf 0).sweepOpen && !m.facetIdOn 0 && !(m.stnOf 0).seen &&
        !m.facetUsed 0 0 && m.sync 0 = 1 && decide (m.lockN 0 ≤ (m.stnOf 0).goodRun + 1) && decide (0 * 10000 ≤ m.lockWin 0 * 2 ^ 20)),
     (let m := (tS (tLas 3 id)).m
      m.tracking && m.inJob 0 && m.isLaser 0 && !m.facetUsed 0 0 && m.sync 0 = 3),
     (let m := (tS (tLas 1 (fun x => { x with set := List.replicate 18 0 ++ [1, 0] }))).m
      m.facetUsed 0 0 && m.sync 0 = 1 && decide ((m.stnOf 0).goodRun + 1 < m.lockN 0) &&
        (List.range 256).all (fun k => decide (k < 70) || loopTrig (m.loopOf k).desc != 2)),
     (let m := (tS (tLas 2 (fun x => { x with seen := true }))).m
      m.tracking && m.inJob 0 && m.isLaser 0 && m.pages.isEmpty && (m.stnOf 0).seen && !(m.stnOf 0).sweepOpen && m.sync 0 = 2),
     (let m := (tS (tLas 2 (fun x => { x with sweepOpen := true }))).m
      m.tracking && m.inJob 0 && m.isLaser 0 && (m.stnOf 0).sweepOpen && decide ((1 : Int).natAbs ≤ max 1 (m.getA (pxcBase 0 + 0x10) 16 8)) &&
        decide (max 1 (m.getA (pxcBase 0 + 0x10) 16 8) < (300 : Int).natAbs) && m.bitA (pxcBase 0) 11),
     !(tS id).m.inJob 0,
     (let m := (tS (fun m => { tLas 0 (fun x => { x with ledLine := some 7, set := List.replicate 22 0 ++ [4] }) m with pages := [(1, tGrid)] })).m
      m.inJob 0 && (m.stnOf 0).ledLine == some 7 && (m.ledNext 0).isSome && decide ((m.stnOf 0).ledPlane + 2 < setPlanes (m.stnOf 0).set)),
     (let m := (tS (fun m => m.wr .a (beamBase 0 3) 0x90000000)).m
      m.inService m.token && decide (0 < stationsOf m.part) && m.beamEnabled 0 3 && !m.bitA (scbBase 0 + 0x14) 3 && m.awaits.isEmpty &&
        m.getA (beamBase 0 3) 28 3 = 1),
     (let m := (tS (fun m => m.wr .a (beamBase 0 3) 0xA0000000)).m
      m.beamEnabled 0 3 && decide (2 ≤ m.getA (beamBase 0 3) 28 3 ∧ m.getA (beamBase 0 3) 28 3 ≤ 4)),
     (let s := tS (fun m => { m with deferred := [⟨0x0803, tMsg (ws [2, 0, 0, 0]), 0, []⟩] })
      s.m.deferred.all (fun w => s.tick.mayStart w && w.opcode = 0x0803) && !s.m.deferred.isEmpty),
     (let s := tS (fun m => { tPan .queued 0 tTpl m with pages := [(1, tGrid)], deferred := [⟨0x0803, tMsg (ws [2, 0, 0, 0]), 10 ^ 12, [0]⟩] })
      s.m.deferred.all (fun w => !s.tick.mayStart w) && !s.m.deferred.isEmpty)] = true := by decide +kernel

theorem witness_StartUpSteps :
    ok [(let m := (tS (fun m => m.modSide .a (fun x => { x with st := .starting, step := 1 }))).m
      m.fitted .a && (m.side .a).st = .starting && decide ((m.side .a).step < 2)),
     (let m := (tS (fun m => m.modSide .a (fun x => { x with st := .starting, step := 2 }))).m
      (m.side .a).st = .starting && (m.side .a).step = 2 && !(m.side .a).core.error),
     (let m := (tS (fun m => (m.setMgt .a 23 false).modSide .a (fun x => { x with st := .starting, step := 3 }))).m
      (m.side .a).st = .starting && decide (3 ≤ (m.side .a).step) && !m.mgt .a 23 && !m.mgt .a 21 && !(m.side .a).core.error && (m.side .a).bankTry = 0),
     (let m := (tS (fun m => (m.setMgt .a 23 false).modSide .a (fun x => { x with st := .starting, step := 3, bankTry := 1 }))).m
      !m.mgt .a 23 && !m.mgt .a 21 && (m.side .a).bankTry != 0),
     (let m := (tS (fun m => m.modSide .a (fun x => { x with st := .starting, step := 5 }))).m
      decide (3 ≤ (m.side .a).step) && m.mgt .a 23),
     (let m := (tS (fun m => (m.setMgt .a 24 false).modSide .a (fun x => { x with st := .starting, step := 6 }))).m
      decide (6 ≤ (m.side .a).step) && !m.mgt .a 24 && (m.side .a).st != .down),
     (let m := (tS (fun m => m.modSide .a (fun x => { x with st := .starting, step := 8 }))).m
      (m.side .a).st = .starting && (m.side .a).step = 8 && m.token = .a),
     (let m := (tS (fun m => m.setMgt .a 15 false)).m
      (m.side .a).st != .down && decide (6 ≤ (m.side .a).step) && decide (15 < slicesOf m.part) && !m.mgt .a 15 &&
        (List.range 15).all (fun k => m.mgt .a k)),
     (let m := (tS (fun m => m.setMgt .a 31 false)).m
      decide (9 ≤ (m.side .a).step) && !m.mgt .a 31 && m.mgt .a 26 && m.mgt .a 27 && m.mgt .a 28)] = true := by decide +kernel

theorem witness_FrontCommandRuns :
    ({ tS id with pending := [.powerGood] }).pending = .powerGood :: [] ∧ (tS id).pending = [] := ⟨rfl, rfl⟩

theorem witness_StepKeepsMemoryCanonical :
    tCodec.memOk = true ∧ ∃ t, step { tCodec with pending := [.collapse] } = .next t := ⟨by decide +kernel, _, rfl⟩

theorem witness_SingleSidedTokenStays :
    Part.w9s ≠ .w9d ∧ (tOn .w9s id).m.part ≠ .w9d ∧ (tOn .w9s id).m.token = .a ∧ SideId.a ≠ .b ∧
      ∃ t, step { tOn .w9s id with pending := [.powerGood] } = .next t := ⟨by decide, by decide, rfl, by decide, _, rfl⟩

theorem witness_TokenAndImageFrames :
    (∃ t, exec .collapse (tS id) = .next t) ∧ movesToken .collapse = false ∧ touchesImage .collapse = false := ⟨⟨_, rfl⟩, rfl, rfl⟩

/-- A recorded answer to SYS_IDENTIFY under tag 7, and one under way. -/
def tTag (rec fly : Bool) (digest : Word) (m : Mach) : Mach :=
  { m with tags := if rec then [⟨7, digest, []⟩] else []
           flights := if fly then [⟨7, .a, .ring 0, 0x0101, 0, digest, true, true⟩] else [] }

theorem witness_TagAndFormDecide :
    mailRow (.sysIdentify (tMsg [])) = some (⟨0x0101, 0, 0, inCAPDF, true, true⟩, tMsg []) ∧
    malformedAt ⟨0x0101, 0, 0, inCAPDF, true, true⟩ (tMsg []) = none ∧
    malformedAt ⟨0x0101, 0, 0, inCAPDF, true, true⟩ (tMsg [1]) = some 8 ∧ { tMsg [] with tag := 0 }.tag = 0 ∧ (tMsg []).tag ≠ 0 ∧
    ok [(tS (tTag true false (msgDigest 0x0101 (tMsg [])))).m.tags.find? (fun r => r.tag == 7) = some ⟨7, msgDigest 0x0101 (tMsg []), []⟩,
     (tS (tTag true false 0)).m.tags.find? (fun r => r.tag == 7) = some ⟨7, 0, []⟩, (0 : Word) != msgDigest 0x0101 (tMsg []),
     (tS (tTag false true 0)).m.tags.isEmpty,
     (tS (tTag false true 0)).m.flights.find? (fun f => f.tag == 7) = some ⟨7, .a, .ring 0, 0x0101, 0, 0, true, true⟩,
     (tS (tTag false true 0)).m.tagVerdict 0x0101 (tMsg []) != .new] = true := by
  refine ⟨rfl, ?_, ?_, rfl, ?_, ?_⟩ <;> decide +kernel

theorem witness_MalformedMessageHasNoEffect :
    let m := (tS (fun m => tRing 8 0 (tRing 0 2 m))).m
    let bs (f a l s d : Nat) := leBytes 4 9 ++ leBytes 2 0x0101 ++ leBytes 1 f ++ leBytes 1 a ++ leBytes 2 l ++ leBytes 2 s ++ leBytes 4 d
    ok [m.mayFetch .a 0, decide (numAt (bs 4 0 0 0 0) 8 2 + 16 ≤ 64 * m.ringSize .a 0), decide (ceilDiv 16 64 ≤ m.ringHeld .a 0),
     decide (4 ≤ numAt (bs 4 0 0 0 0) 6 1), decide (2 < numAt (bs 0 3 0 0 0) 7 1), decide (numAt (bs 0 0 0 1 0) 10 2 ≠ 0),
     decide (numAt (bs 0 0 0 0 1) 12 4 ≠ 0),
     decide (cmdTable.find? (fun c => c.1 == numAt (bs 0 0 1 0 0) 4 2) = some (0x0101, 0, 0) ∧ numAt (bs 0 0 1 0 0) 8 2 ≠ 0)] = true := by
  decide +kernel

theorem witness_ValidateChangesNothing :
    mailRow (.sysIdentify { tMsg [] with flags := 2 }) = some (⟨0x0101, 0, 0, inCAPDF, true, true⟩, { tMsg [] with flags := 2 }) ∧
    isValidate { tMsg [] with flags := 2 } = true ∧
    ∀ m', Instr.sysIdentify { tMsg [] with flags := 2 } ≠ .planeDefine m' ∧ Instr.sysIdentify { tMsg [] with flags := 2 } ≠ .jobArm m' :=
  ⟨rfl, by decide +kernel, fun _ => ⟨fun h => (by cases h), fun h => (by cases h)⟩⟩

theorem witness_DoorbellsDecided :
    ok [(let m := (tS id).m
      m.bar4On .a && !m.ringOn .a 63 && m.sleepState = 0),
     (let m := (tS (tRing 0 2)).m
      m.ringOn .a 0 && !ringToHost 0 && decide (m.ringSize .a 0 < (1000 + 65536 - m.ringHead .a 0) % 65536) &&
        decide ((1 + 65536 - m.ringHead .a 0) % 65536 < m.ringHeld .a 0) && decide ((3 + 65536 - m.ringHead .a 0) % 65536 ≤ m.ringSize .a 0) &&
        decide (m.ringHeld .a 0 ≤ (3 + 65536 - m.ringHead .a 0) % 65536)),
     (let m := (tS (tRing 8 2)).m
      m.ringOn .a 8 && ringToHost 8 && decide (m.ringSize .a 8 < (m.ringTail .a 8 + 65536 - 3) % 65536) &&
        decide (m.ringHeld .a 8 < (m.ringTail .a 8 + 65536 - 65535) % 65536) && decide ((m.ringTail .a 8 + 65536 - 1) % 65536 ≤ m.ringSize .a 8) &&
        decide ((m.ringTail .a 8 + 65536 - 1) % 65536 ≤ m.ringHeld .a 8) && !isRecordRing 8)] = true := by decide +kernel

theorem witness_ResumeLetsChannelGoOn :
    ok [(let m := (tS (fun m => tDma (fun c => { c with state := .stopped, fault := true, cause := 7 }) (tRing 16 1 (m.wr .a (dmaBase 0) 0x80000000)))).m
      m.fitted .a && ((m.side .a).dmaOf 0).state = .stopped && bitOf (m.rd .a (dmaBase 0)) 31 && m.ringOn .a 16 &&
        decide (0 < m.ringHeld .a 16) && jobEntryOk (tEntry 64))] = true := by decide +kernel

/-- A command of tag 5 that has been deferred, and one that was deferred and has started. -/
def tDeferred : Deferred := ⟨0x0901, { tMsg (ws [1, 1]) with tag := 5 }, 0, []⟩

theorem witness_CancelDecided :
    ok [(let msg := tMsg (ws [5])
      msg.via = .ring 0 && msg.affinity = 0 && msg.payload.length = 4 && decide (msg.flags < 2) &&
        decide ((tS id).m.tagVerdict 0x0104 msg = .new)),
     (let m := (tS (fun m => { m with deferred := [tDeferred] })).m
      m.deferred.find? (fun w => w.msg.tag == numAt (ws [5]) 0 4) = some tDeferred),
     (let m := (tS (fun m => { m with awaits := [⟨.calRun 1 1, 0x0901, tDeferred.msg, true⟩] })).m
      m.deferred.isEmpty && m.awaits.any (fun w => w.deferred && w.msg.tag == numAt (ws [5]) 0 4)),
     (tS id).m.awaits.isEmpty] = true := by decide +kernel

theorem witness_NewIdentifiersNameNothing :
    ([] : Tab Region).length < 0xFFFFFFFE ∧ ([] : Tab Plane).length < 0xFFFFFFFE ∧ ([] : Tab TplSet).length < 0xFFFFFFFE := by decide

theorem witness_RegistersRead :
    ok [!(State.resetFor .w9d).m.bar0On .a 0, !(State.resetFor .w9d).m.bar4On .a, (tS id).m.bar0On .a 0,
     (tOn .w9s id).m.part != .w9d, (tOn .w7s id).m.part = .w7s, decide (0xFC0000 ≤ 0xFC0014 ∧ 0xFC0014 < 0xFD0000),
     decide (0x640000 ≤ 0x640014 ∧ 0x640014 < 0x660000)] = true := by decide +kernel

/-! ### Single commands -/

/-- What a command makes of a state; the state itself where it stops. -/
def after (i : Instr) (s : State) : State :=
  match exec i s with
  | .next t => t
  | _ => s

/-- R82, R105: while Drone is in charge, an on request with the rails OFF starts power-up at step 0. -/
theorem test_go_up : ok [(let t := after (.goUp .a) (tS (fun m => (m.setMgt .a 24 false).wr .a 0x40000 0x01000000))
    t.m.seqState = 1 && t.m.curStep = 0)] = true := by decide +kernel

/-- R109: below 36 V the sequencer releases every rail. -/
theorem test_collapse : ok [(after .collapse (tS (tSeq 2 0))).m.seqState = 4] = true := by decide +kernel

/-- R165, R167: a set event bit is pending. -/
theorem test_evt_set : ok [((after (.evtSet .a 1 4) (tS id)).m.side .a).evt.pend.getLsbD 34] = true := by decide +kernel

/-- R153: a doorbell of a ring that is off sets BAD_DOORBELL. -/
theorem test_ring_db : ok [bitOf ((after (.ringDb .a 0 3) (tS id)).m.rd .a (ringPage 0 + 0x18)) 29] = true := by decide +kernel

/-- R175, R178: SYS_ECHO answers with its payload. -/
theorem test_sys_echo : ok [(let t := after (.sysEcho (tMsg [1, 2, 3])) (tS id)
    t.m.tags.head?.any (fun r => r.resp.drop 16 == [1, 2, 3]))] = true := by decide +kernel

/-- R8, R187: a station that the part lacks is answered ST_UNIT_ABSENT. -/
theorem test_absent_unit : ok [(let t := after (.stationOffset (tMsg (ws [4, 0]))) (tOn .w7s id)
    t.m.tags.head?.any (fun r => numAt r.resp 10 2 = stUnitAbsent))] = true := by decide +kernel

/-- R192: JOB_END of no armed job is answered ST_BAD_STATE with the engine state in DETAIL. -/
theorem test_bad_state : ok [(let t := after (.jobEnd (tMsg (ws [1]))) (tS id)
    t.m.tags.head?.any (fun r => numAt r.resp 10 2 = stBadState && numAt r.resp 12 1 = 1))] = true := by decide +kernel

/-- R131, R138: a byte written through BAR2 is read back. -/
theorem test_bar2_write : ok [(after (.bar2Write .a (firmwareEnd + 70) [9] [] []) (tS id)).img.a.get (firmwareEnd + 70) == 9] = true := by
  decide +kernel

/-- R290: WAIT for two tokens waits. -/
theorem test_dma_wait : ok [((((after (.dmaWait .a 0 (tRawI ([3, 0, 0, 0] ++ leBytes 4 2))) (tRuns id))).m.side .a).dmaOf 0).state = .waiting] = true := by
  decide +kernel

/-- R475: a step ends a microstep further on. -/
theorem test_step : ok [decide ((((after (.stepIntervalEnd 0 none) (tS (fun m =>
    (tStep 2 (fun x => { x with ivl := 5, v := 1, dir := 1, target := 2560 }) m)))).m.stepOf 0).pos = 256))] = true := by decide +kernel

/-- R73: an opened channel of the laser loop is open. -/
theorem test_interlock : ok [!(after (.laserInterlock .a) (tS tReady)).m.ilk.laserA] = true := by decide +kernel

/-- R205: a defined job is there. -/
theorem test_job_define : ok [(let t := after (.jobDefine (tMsg (ws [1, 0x30010101, 1000, 0] ++ ws [3, 0, 0, 0, 0, 0] ++ ws [0, 0]))) (tS id)
    tabHas t.m.jobs 1)] = true := by decide +kernel

/-- R647: tampering latches TAMPERED with its cause and the count. -/
theorem test_tamper : ok [(after (.tamper .a .mesh) (tS id)).m.rd .a 0xFE0004 == 0xC0000001] = true := by decide +kernel

/-- R84, R598: the token moves to the partner. -/
theorem test_token_move : ok [(after (.tokenMove 0) (tS (fun m => { tMatch true m with moving := some (.a, true) }))).m.token = .b] = true := by
  decide +kernel

/-- R129: an access beyond the window of BAR0 stops by name. -/
theorem test_outside_bar : exec (.registerWrite .a .bar0 0x1000000 [(15, 0)]) (tS id) = .fault .outsideBar := rfl

/-- A step on an empty queue idles, and one with a command runs it and takes it off the queue. -/
theorem test_idle : step (tS id) = .next (tS id) := rfl

/-- The check value that CRC-32C is defined with: the CRC of the digits 1 to 9. -/
theorem test_crc32c : crc32c [0x31, 0x32, 0x33, 0x34, 0x35, 0x36, 0x37, 0x38, 0x39] = 0xE3069283 := by decide +kernel

/-- R352, R373: a counter that was never set shows EPOCH 1. -/
theorem test_counter_epoch : (tS id).m.readReg .a .bar0 0x501018 = 1 := by decide +kernel

/-- R347: the digits 123456 as Data Matrix codewords, from ISO/IEC 16022's worked example. -/
theorem test_data_matrix : dmAll (dmSize 1) ([0x31, 0x32, 0x33, 0x34, 0x35, 0x36].map some) = [142, 164, 186, 114, 25, 5, 88, 102] := by
  decide +kernel

/-- R347: the check character of Code 128 characters. -/
theorem test_code_128 : c128Check [103, 48, 42, 42, 17, 18, 19, 35] = 54 := by decide +kernel

theorem witness_RingLinkAndDmaEventsComplete :
    ok [-- rings and messages
     (let m := (tS id).m
      m.bar4On .a && !m.ringOn .a 0),
     (let m := (tS (fun m => tRing 8 0 (tRing 0 2 m))).m
      m.bar4On .a && m.ringOn .a 0 && !ringToHost 0 && decide (0 < m.ringHeld .a 0) && m.mayFetch .a 0 &&
        decide (numAt (tRaw 0) 8 2 + 16 ≤ 64 * m.ringSize .a 0) && decide (ceilDiv (16 + numAt (tRaw 0) 8 2) 64 ≤ m.ringHeld .a 0) &&
        badHeader (tRaw 0) = none && decide (m.tagVerdict (numAt (tRaw 0) 4 2) (msgOf .a (.ring 0) (tRaw 0)) = .new) && m.flights.isEmpty &&
        cmdTable.any (fun c => c.1 == numAt (tRaw 0) 4 2)),
     (let m := (tS (fun m => { tPair m with flights := [tFlight] })).m
      m.mgt .b 29 && m.token != .b && m.flights == [tFlight] && tFlight.tag = numAt (tRaw 0) 0 4 && tFlight.side = .b &&
        tFlight.via = .ring 0 && !tFlight.begun),
     -- the link of the sides
     (let m := (tS tStarting).m
      m.part = .w9d && m.a.step != 0 && m.b.step != 0 && m.fwRelease .a (m.runs .a) = m.fwRelease .b (m.runs .b) &&
        m.fwField .a (m.runs .a) 1 = m.fwField .b (m.runs .b) 1),
     (let m := (tS (tMatch true)).m
      m.ligUp && decide (8 < m.lanes) && m.compares 0 && m.matched 0 && m.shadowed && m.inJob 0),
     (let m := (tS (fun m => { tMatch true m with pages := [(1, tGrid)] })).m
      m.compares 0 && m.linePages 0 100 == [(1, 5)]),
     (let m := (tS (tJoin 1)).m
      (m.side m.token.other).st = .joining && m.getA 0xFC001C 28 4 = 1),
     (let m := (tS (fun m => { m with faults := [(faultKey 0x16 0 0, ⟨1, false⟩)] })).m
      !m.lasting 0x16 0 0 && decide (0 < (m.faultInst 0x16 0 0).count)),
     -- DMA
     (let m := (tS id).m
      m.fitted .a && ((m.side .a).dmaOf 0).move = none),
     (let c := ((tS (tDma (fun c => { c with state := .waiting, need := 2, tokens := 2 }))).m.side .a).dmaOf 0
      c.state = .waiting && decide (c.need ≤ c.tokens)),
     (let m := (tS (fun m => m.wr .a (dmaBase 0 + 8) 0x00010000)).m
      m.get .a (dmaBase 0 + 8) 16 16 != 0 && decide (((m.side .a).dmaOf 0).tokens < 65535)),
     (let c := ((tRuns (fun c => { c with move := some (tMv 0 0x40 []), bytes := 16 })).m.side .a).dmaOf 0
      c.move == some (tMv 0 0x40 []) && decide ((tMv 0 0x40 []).length ≤ c.bytes)),
     (let m := (tRuns (fun c => { c with move := some (tMv 0 0x40 []) })).m
      let c := (m.side .a).dmaOf 0
      c.move == some (tMv 0 0x40 []) && c.state = .running && c.bytes = 0 && decide ((tMv 0 0x40 []).dst % 64 + 16 ≤ 64) && c.hostWait &&
        (m.side .a).st != .down),
     (let m := (tS (tDma (fun c => { c with state := .blocked, bytes := 8, move := some (tMv 2 0 (List.replicate 8 1)) }))).m
      let c := (m.side .a).dmaOf 0
      c.state = .blocked && (tMv 2 0 (List.replicate 8 1)).pending.length = 16 - c.bytes && decide (c.bytes % 64 + 8 ≤ 64) &&
        decide ((tabGet [] (m.side .a).feeds 0).length + 8 ≤ 262144))] = true := by decide +kernel

theorem witness_StationAndLineEventsComplete :
    ok [-- encoders
     (let m := (tS (fun m => m.wr .a (encBase 0) 1)).m
      m.tracking && lineIdleB m && edgeStep (m.getA (encBase 0) 0 2) true false false != 0 && m.getA (encBase 0) 0 2 = 1 &&
        !m.bitA (encBase 0 + 0x24) 29 && m.enc.isEmpty),
     (let m := (tS (fun m => ((m.wr .a (encBase 0) 0x2001).wr .a (encBase 0 + 8) 4096).modEnc 0 (fun e => { e with forward := true }))).m
      m.tracking && lineIdleB m && m.bitA (encBase 0) 13 && m.rdA (encBase 0 + 8) != 0 && (m.encOf 0).forward && !m.bitA (encBase 0 + 0x24) 23),
     -- captures and reject outputs
     (let m := (tS id).m
      m.tracking && m.inService .a && m.io24),
     (let m := (tS (fun m => (m.modRej 0 (fun r => { r with running := 2, overload := true })).wr .a 0xD0300C 0x80000000)).m
      decide (0 < (m.rejOf 0).running) && m.bitA 0xD0300C 31 && (m.rejOf 0).overload),
     -- a deferred command that may start
     (let s := tS (fun m => { m with deferred := [⟨0x0803, tMsg (ws [2, 0, 0, 0]), 0, []⟩] })
      s.m.deferred.all (fun w => s.tick.mayStart w && w.opcode = 0x0803) && !s.m.deferred.isEmpty),
     -- stations
     (let m := (tS (tLas 3 id)).m
      m.tracking && m.inJob 0 && m.isLaser 0 && m.pages.isEmpty && !(m.stnOf 0).sweepOpen && !m.facetIdOn 0 && !(m.stnOf 0).seen &&
        !m.facetUsed 0 0 && m.sync 0 = 3),
     (let m := (tS (tLas 2 (fun x => { x with seen := true }))).m
      (m.stnOf 0).seen && !(m.stnOf 0).sweepOpen && m.sync 0 = 2),
     (let m := (tS (tLas 2 (fun x => { x with sweepOpen := true }))).m
      m.tracking && m.inJob 0 && m.isLaser 0 && m.pages.isEmpty && (m.stnOf 0).sweepOpen &&
        decide ((1 : Int).natAbs ≤ max 1 (m.getA (pxcBase 0 + 0x10) 16 8))),
     (let m := (tS (fun m => { tLas 0 (fun x => { x with ledLine := some 7, set := List.replicate 22 0 ++ [4] }) m with pages := [(1, tGrid)] })).m
      m.inJob 0 && (m.stnOf 0).ledLine == some 7 && (m.ledNext 0).isSome && decide ((m.stnOf 0).ledPlane + 2 < setPlanes (m.stnOf 0).set)),
     (let m := (tS (fun m => m.wr .a (beamBase 0 3) 0x90000000)).m
      m.inService m.token && decide (0 < stationsOf m.part) && m.beamEnabled 0 3 && !m.bitA (scbBase 0 + 0x14) 3 && m.awaits.isEmpty &&
        m.getA (beamBase 0 3) 28 3 = 1),
     -- loops and density
     (let m := (tS (fun m => tLoop 0 1 [] (tMotor 0 4 id m))).m
      loopFitted m.part 0 && loopTrig (m.loopOf 0).desc = 1 && decide (m.getA 0x20004 19 3 < 2) && m.loopApplies 0 && (m.loopOf 0).st = 1 &&
        m.cal.ramps.isEmpty && !m.bitA calStat 27 &&
        (List.range 256).all (fun k => loopTrig (m.loopOf k).desc != 4 || loopArg (m.loopOf k).desc != 0) &&
        m.loopInput 0 = none && numAt (m.loopOf 0).desc 13 1 = 0),
     (let m := (tS id).m
      m.drv.dens.isEmpty && decide (0 < stationsOf m.part))] = true := by decide +kernel

end Sys2Proof.Tests
end

section
/-!
PROOF. What the host's register writes do (R14, R130): fields of a word, the parts of a write to BAR0, an access that breaks R130, and the
MSI-X control word.
-/

namespace Sys2Proof.Machine

/-! ### Fields of a register word -/

theorem testBit_fieldOf (w : Word) (lo len i : Nat) : (fieldOf w lo len).testBit i = (decide (i < len) && w.getLsbD (lo + i)) := by
  rw [fieldOf, Nat.testBit_mod_two_pow, Nat.testBit_shiftRight]
  rfl

/-- The field just written, where it lies inside the word. -/
theorem fieldOf_putField_self (w : Word) {lo len : Nat} (v : Nat) (h : lo + len ≤ 32) :
    fieldOf (putField w lo len v) lo len = v % 2 ^ len := by
  apply Nat.eq_of_testBit_eq
  intro i
  rw [testBit_fieldOf, Nat.testBit_mod_two_pow]
  by_cases hi : i < len
  · have h32 : lo + i < 32 := by omega
    simp only [putField, BitVec.getLsbD_or, BitVec.getLsbD_and, BitVec.getLsbD_not, BitVec.getLsbD_ofNat, Nat.testBit_shiftLeft,
      Nat.testBit_two_pow_sub_one, Nat.testBit_mod_two_pow, Nat.add_sub_cancel_left, h32, hi]
    simp
  · simp [hi]

/-- A word under the mask of all bits, as `simp` writes it. -/
theorem and_allOnes_word (w : Word) : w &&& 4294967295#32 = w := BitVec.and_allOnes

theorem satAt_eq_min (bound v : Nat) : satAt bound v = min bound v := by
  unfold satAt
  split <;> omega

/-- A field after it was set. -/
theorem Mach.get_put_self (m : Mach) (d : SideId) (off : Nat) {lo len : Nat} (v : Nat) (h : lo + len ≤ 32) :
    (m.put d off lo len v).get d off lo len = v % 2 ^ len := by
  rw [Mach.get, Mach.put, Mach.rd_wr_self, fieldOf_putField_self _ _ h]

/-! ### What leaves the registers -/

/-- A change of a side that keeps its registers. -/
theorem Mach.rd_modSide (m : Mach) (d e : SideId) (f : Side → Side) (off : Nat) (h : (f (m.side d)).regs = (m.side d).regs) :
    (m.modSide d f).rd e off = m.rd e off := Mach.rd_setSide m d e _ off h

@[simp] theorem Mach.rd_caps (m : Mach) (cs : Tab CapState) (e : SideId) (off : Nat) :
    ({ m with caps := cs } : Mach).rd e off = m.rd e off := by
  cases e <;> rfl

/-- Writing a register changes that register alone. -/
theorem Mach.wr_onlyRegs (m : Mach) (d : SideId) (off : Nat) (v : Word) : (m.wr d off v).OnlyRegs m [off] :=
  fun e _ _ hx => m.rd_wr_ne d e v (by simpa using hx)

@[simp] theorem State.tick_fitted (s : State) (d : SideId) : s.tick.fitted d = s.m.fitted d := rfl

@[simp] theorem State.tick_bar0On (s : State) (d : SideId) (off : Nat) : s.tick.bar0On d off = s.m.bar0On d off := by
  simp [Mach.bar0On, Mach.mgt]

@[simp] theorem State.tick_droneRules (s : State) (d : SideId) : s.tick.droneRules d = s.m.droneRules d := by
  simp [Mach.droneRules, Mach.mgt]

@[simp] theorem State.tick_seqState (s : State) : s.tick.seqState = s.m.seqState := by
  simp [Mach.seqState, Mach.get]

/-- The blocks of BAR0 respond in two groups, below 0x100000 and from it on (R82). -/
theorem Mach.bar0On_congr (m : Mach) (d : SideId) {off off' : Nat} (h : off < 0x100000 ↔ off' < 0x100000) :
    m.bar0On d off = m.bar0On d off' := by
  simp only [Mach.bar0On, h]

/-- A side whose BAR0 responds is fitted and runs (R82). -/
theorem Mach.runs_of_bar0On {m : Mach} {d : SideId} {off : Nat} (h : m.bar0On d off = true) :
    m.fitted d = true ∧ (m.side d).st ≠ .down := by
  simp only [Mach.bar0On, Bool.and_eq_true, bne_iff_ne] at h
  exact ⟨h.1.1.1.1, h.1.1.1.2⟩

/-! ### The lift of a register write -/

/-- A command on image memory whose function leaves the token and the part gives what its function gives. -/
theorem onMem_keeps (f : Images → Mach → Images × Mach) (s : State) {g : Images} {m : Mach} (h : f s.img s.tick = (g, m))
    (ht : m.token = s.m.token) (hp : m.part = s.m.part) : onMem f s = .next { s with m := m, img := g } := by
  rw [onMem_eq, h, ← ht, ← hp]

/-- A whole word written to an aligned offset of BAR0 has the effect of `writeBar0`. -/
theorem gives_writeBar0 {d : SideId} {off : Nat} {v : Word} {s : State} {p : State → Prop} {m : Mach} (hw : off + 4 ≤ 0x1000000)
    (ha : off % 4 = 0) (h : writeBar0 d off v (s.img, s.tick) = (s.img, m)) (ht : m.token = s.m.token) (hp : m.part = s.m.part)
    (hg : p { s with m := m }) : Gives (.registerWrite d .bar0 off [(15, v)]) s p := by
  refine ⟨_, ?_, hg⟩
  show execRegisterWrite d .bar0 off [(15, v)] s = _
  have hin : ¬ barSize .bar0 < off + 4 * [(15, v)].length := by simpa [barSize] using hw
  rw [execRegisterWrite, if_neg hin]
  exact onMem_keeps _ s (by simpa [isCfg, badAccess, ha, regWrites, regWrite] using h) ht hp

/-- An access that breaks R130 is counted and has no other effect. -/
theorem gives_badAccess {d : SideId} {bar : Bar} {off : Nat} {words : List (Nat × Word)} {s : State} {p : State → Prop}
    (hw : off + 4 * words.length ≤ barSize bar) (hc : isCfg bar = false) (hb : badAccess off words = true) (hf : s.m.fitted d = true)
    (hs : (s.m.side d).st ≠ .down) (hd : (s.m.side d).d3 = false)
    (hg : p { s with m := s.tick.put d linkStat 0 8 (min 0xFF (s.m.get d linkStat 0 8 + 1)) }) :
    Gives (.registerWrite d bar off words) s p := by
  refine ⟨_, ?_, hg⟩
  show execRegisterWrite d bar off words s = _
  rw [execRegisterWrite, if_neg (by omega)]
  refine onMem_keeps _ s ?_ (Mach.wr_token _ _ _ _) (Mach.wr_part _ _ _ _)
  simp [hc, hb, hf, hs, hd, satAt_eq_min, Mach.get]

/-! ### A write to BAR0 -/

/-- An offset of BAR0 whose write has no action beside the access codes of its row and, on CAP_STAT, the pop of an entry. -/
def plainOff (off : Nat) : Prop :=
  ¬(0x100000 ≤ off ∧ off < 0x100700) ∧ ¬(0x11010 ≤ off ∧ off < 0x11190) ∧ ¬(0x40200 ≤ off ∧ off < 0x40260) ∧
    ¬(0x30000 ≤ off ∧ off < 0x30010) ∧ ¬(0x200000 ≤ off ∧ off < 0x202000 ∧ off % 0x100 = 0) ∧
    off ∉ [0x40000, 0x40010, 0x30002C, 0x400000, 0x20000]

/-- A write to such a register acts under the access codes of its row; of the rest of the module it changes the captures at most. -/
theorem writeBar0_of_plainOff {d : SideId} {off : Nat} {r : RegRow} (v : Word) (x : Mem) (hon : x.2.bar0On d off = true)
    (hab : regAbsent x.2.part off = false) (hr : rowOf off = some r) (h : plainOff off) :
    ∃ cs, writeBar0 d off v x = (x.1, { x.2.writePlain d r off v with caps := cs }) := by
  obtain ⟨hevt, hflt, hrail, hthm, hdma, hact⟩ := h
  simp only [List.mem_cons, List.not_mem_nil, or_false, not_or] at hact
  obtain ⟨hseq, hrst, himc, hcdc, hpst⟩ := hact
  unfold writeBar0
  simp only [hon, hab, Bool.not_true, Bool.or_false, Bool.false_eq_true, if_false, if_neg hevt, if_neg hflt, if_neg hrail, if_neg hthm,
    if_neg hdma, hr, hseq, hrst, himc, hcdc, hpst, false_and]
  split
  · exact ⟨_, rfl⟩
  · exact ⟨_, rfl⟩

/-- A write to a register without RWL bits and clearing fields: the bits that the host may write take the value, and the W1C bits
written 1 are cleared. -/
theorem Mach.writePlain_free (m : Mach) (d : SideId) {r : RegRow} {off : Nat} (v : Word) (hst : stageReg off = false) (hl : r.rwl = 0)
    (hc : r.clr = 0) :
    m.writePlain d r off v = m.wr d off
      (((m.rd d off &&& ~~~(r.rw ||| if m.droneRules d then r.fw else 0)) ||| (v &&& (r.rw ||| if m.droneRules d then r.fw else 0))) &&&
        ~~~(r.w1c &&& v)) := by
  simp [Mach.writePlain, Mach.regSide, RegRow.onlyRwl, hst, hl, hc, and_allOnes_word]

/-- A register that holds RWL bits alone takes them while its unit is stopped. -/
theorem Mach.writePlain_rwl_stopped (m : Mach) (d : SideId) {r : RegRow} {off : Nat} (v : Word) (hst : stageReg off = false)
    (hr : r.rw = 0 ∧ r.w1c = 0 ∧ r.fw = 0 ∧ r.clr = 0) (hu : m.unitStopped d off = true) :
    m.writePlain d r off v = m.wr d off ((m.rd d off &&& ~~~r.rwl) ||| (v &&& r.rwl)) := by
  obtain ⟨hrw, hw1c, hfw, hclr⟩ := hr
  simp [Mach.writePlain, Mach.regSide, hst, hrw, hw1c, hfw, hclr, hu, and_allOnes_word]

/-- A register that holds RWL bits alone keeps its word while its unit runs, and the write is an error. -/
theorem Mach.writePlain_rwl_running (m : Mach) (d : SideId) {r : RegRow} {off : Nat} (v : Word) (hst : stageReg off = false)
    (hr : r.rw = 0 ∧ r.w1c = 0 ∧ r.fw = 0 ∧ r.clr = 0) (hl : r.rwl ≠ 0#32) (hu : m.unitStopped d off = false) :
    m.writePlain d r off v = (m.wr d off (m.rd d off)).regError d off := by
  obtain ⟨hrw, hw1c, hfw, hclr⟩ := hr
  simp [Mach.writePlain, Mach.regSide, RegRow.onlyRwl, hst, hrw, hw1c, hfw, hclr, hl, hu, and_allOnes_word]

/-- Writing back the word that a register holds changes no register. -/
theorem Mach.rd_wr_rd (m : Mach) (d e : SideId) (off x : Nat) : (m.wr d off (m.rd d off)).rd e x = m.rd e x := by
  by_cases hx : x = off
  · subst hx
    by_cases he : e = d
    · subst he; rw [Mach.rd_wr_self]
    · cases hm : moduleWide x
      · rw [Mach.rd_wr_side m x x _ he hm]
      · rw [Mach.rd_moduleWide _ e d hm, Mach.rd_wr_self, Mach.rd_moduleWide m e d hm]
  · rw [Mach.rd_wr_ne _ _ _ _ hx]

/-! ### An error outside the rings -/

/-- A discarded write outside the rings raises event 10 on a side that runs. -/
theorem Mach.regError_pend (m : Mach) (d : SideId) {off : Nat} (h : off < bar4) (hf : m.fitted d = true) (hs : (m.side d).st ≠ .down) :
    ((m.regError d off).side d).evt.pend.getLsbD 10 = true := by
  rw [Mach.regError, if_neg (by omega)]
  have hp : eventAbsent m.part 10 = false := by cases m.part <;> rfl
  exact (Mach.logFor_keeps _ _ _ _ _ _ _ _).2 _ _ (m.raiseOn_sets d 10 (by omega) hp hf hs)

/-- A discarded write outside the rings is logged with its offset. -/
theorem Mach.regError_log (m : Mach) (d : SideId) {off : Nat} (h : off < bar4) :
    ∃ e, (m.regError d off).log = e :: m.log ∧ e.args = [(off : Int)] := by
  rw [Mach.regError, if_neg (by omega), Mach.logFor_log, Mach.raiseOn_log]
  exact ⟨_, rfl, rfl⟩

/-- A discarded write leaves all but events, the log and what they bring about. -/
theorem Mach.regError_like (m : Mach) (d : SideId) (off : Nat) : (m.regError d off).Like m := by
  unfold Mach.regError
  split
  · exact m.raiseOn_like d 52
  · exact (Mach.logFor_like _ _ _ _ _ _ _ _).trans (m.raiseOn_like d 10)

/-! ### The step registers of the sequencer (R91, R95) -/

/-- The row of SEQ_STEP_RAILS. -/
def stepRailsRow : RegRow := { name := "SEQ_STEP_RAILS", base := 0x40100, n := 16, rwl := 0x00FFFFFF }

theorem rowOf_stepRails (i : Nat) (hi : i < 16) : rowOf (0x40100 + 4 * i) = some stepRailsRow := by
  have h : ∀ i : Fin 16, rowOf (0x40100 + 4 * i) = some stepRailsRow := by decide
  exact h ⟨i, hi⟩

theorem plainOff_stepRails {i : Nat} (hi : i < 16) : plainOff (0x40100 + 4 * i) := by
  simp only [plainOff, List.mem_cons, List.not_mem_nil, or_false]
  omega

theorem regAbsent_stepRails (p : Part) (i : Nat) (hi : i < 16) : regAbsent p (0x40100 + 4 * i) = false := by
  have h : ∀ i : Fin 16, regAbsent p (0x40100 + 4 * i) = false := by cases p <;> decide
  exact h ⟨i, hi⟩

theorem stageReg_stepRails {i : Nat} (hi : i < 16) : stageReg (0x40100 + 4 * i) = false := by
  simp only [stageReg, decide_eq_false_iff_not]
  omega

theorem stepRailsRow_onlyRwl : stepRailsRow.rw = 0 ∧ stepRailsRow.w1c = 0 ∧ stepRailsRow.fw = 0 ∧ stepRailsRow.clr = 0 :=
  ⟨rfl, rfl, rfl, rfl⟩

theorem unitStopped_stepRails (m : Mach) (d : SideId) {i : Nat} (hi : i < 16) :
    m.unitStopped d (0x40100 + 4 * i) = decide (m.seqState = 0) := by
  have h : moduleWide (0x40100 + 4 * i) = true := by simp only [moduleWide, decide_eq_true_eq]; omega
  rw [Mach.unitStopped, if_pos h]

/-- A write to a step register acts under RWL alone. -/
theorem gives_stepRails {s : State} {d : SideId} {i : Nat} {v : Word} {p : State → Prop} (hi : i < 16) (hon : s.m.bar0On d 0x40100 = true)
    (ht : (s.tick.writePlain d stepRailsRow (0x40100 + 4 * i) v).token = s.m.token)
    (hp : (s.tick.writePlain d stepRailsRow (0x40100 + 4 * i) v).part = s.m.part)
    (h : ∀ cs, p { s with m := { s.tick.writePlain d stepRailsRow (0x40100 + 4 * i) v with caps := cs } }) :
    Gives (.registerWrite d .bar0 (0x40100 + 4 * i) [(15, v)]) s p := by
  have hon' : s.tick.bar0On d (0x40100 + 4 * i) = true := by
    rw [State.tick_bar0On, s.m.bar0On_congr d (off' := 0x40100) (by omega), hon]
  obtain ⟨cs, hcs⟩ := writeBar0_of_plainOff v (s.img, s.tick) hon' (regAbsent_stepRails _ i hi) (rowOf_stepRails i hi)
    (plainOff_stepRails hi)
  exact gives_writeBar0 (by omega) (by omega) hcs ht hp (h cs)

/-! ### EVT_STAT (R165) -/

theorem regAbsent_evtStat (p : Part) (k : Nat) (hk : k < 4) : regAbsent p (0x100000 + 4 * k) = false := by
  have h : ∀ k : Fin 4, regAbsent p (0x100000 + 4 * k) = false := by cases p <;> decide
  exact h ⟨k, hk⟩

/-- A write to the block of the event router. -/
theorem writeBar0_evt {d : SideId} {o : Nat} (v : Word) (x : Mem) (ho : o < 0x700) (hon : x.2.bar0On d (0x100000 + o) = true)
    (hab : regAbsent x.2.part (0x100000 + o) = false) : writeBar0 d (0x100000 + o) v x = (x.1, x.2.writeEvt d o v) := by
  have hin : 0x100000 ≤ 0x100000 + o ∧ 0x100000 + o < 0x100700 := by omega
  simp only [writeBar0, hon, hab, Bool.not_true, Bool.or_false, Bool.false_eq_true, if_false, if_pos hin, Nat.add_sub_cancel_left]

/-- The bits of EVT_STAT that word `k` of the register covers. -/
def evtWord (k : Nat) (v : Word) : BitVec 128 := (v.setWidth 128 : BitVec 128) <<< (32 * k)

theorem getLsbD_evtWord (k : Nat) (v : Word) {n : Nat} (hn : n < 128) :
    (evtWord k v).getLsbD n = (decide (n / 32 = k) && v.getLsbD (n % 32)) := by
  rw [evtWord, BitVec.getLsbD_shiftLeft, BitVec.getLsbD_setWidth]
  rcases Nat.lt_trichotomy (n / 32) k with h | h | h
  · have hlt : n < 32 * k := by omega
    have hne : n / 32 ≠ k := by omega
    simp [hlt, hne]
  · have hge : ¬ n < 32 * k := by omega
    have hmod : n - 32 * k = n % 32 := by omega
    have hlt : n % 32 < 128 := by omega
    simp [hge, hmod, hlt, hn, h]
  · have hne : n / 32 ≠ k := by omega
    have hge : 32 ≤ n - 32 * k := by omega
    simp [BitVec.getLsbD_of_ge v _ hge, hne]

theorem Mach.writeEvt_stat (m : Mach) (d : SideId) {k : Nat} (v : Word) (hk : k < 4) :
    m.writeEvt d (4 * k) v =
      m.modSide d (fun x => { x with evt := { x.evt with pend := x.evt.pend &&& ~~~evtWord k v } }) := by
  have ho : 4 * k < 0x10 := by omega
  have hd : 4 * k / 4 = k := by omega
  simp only [Mach.writeEvt, if_pos ho, hd, evtWord]

/-! ### The MSI-X control word (R132) -/

theorem byteMask_mod (en : Nat) : byteMask en = byteMask (en % 16) := by
  have h0 : en % 16 % 2 = en % 2 := by omega
  have h1 : en % 16 / 2 % 2 = en / 2 % 2 := by omega
  have h2 : en % 16 / 4 % 2 = en / 4 % 2 := by omega
  have h3 : en % 16 / 8 % 2 = en / 8 % 2 := by omega
  simp [byteMask, h0, h1, h2, h3]

/-- The highest byte of a word is enabled by bit 3 of the mask. -/
theorem getLsbD_byteMask_high (en : Nat) {k : Nat} (hk : k = 31 ∨ k = 30) : (byteMask en).getLsbD k = decide (en / 8 % 2 = 1) := by
  have h : ∀ n : Fin 16, (byteMask n).getLsbD 31 = decide ((n : Nat) / 8 % 2 = 1) ∧
      (byteMask n).getLsbD 30 = decide ((n : Nat) / 8 % 2 = 1) := by decide
  have he := h ⟨en % 16, by omega⟩
  have h8 : en % 16 / 8 % 2 = en / 8 % 2 := by omega
  rw [byteMask_mod, ← h8]
  rcases hk with rfl | rfl
  · exact he.1
  · exact he.2

/-- A word of configuration space with the enabled bytes replaced. -/
theorem bitOf_merge_high (old v : Word) (en : Nat) {k : Nat} (hk : k = 31 ∨ k = 30) :
    bitOf (old &&& ~~~byteMask en ||| v &&& byteMask en) k = if en / 8 % 2 = 1 then bitOf v k else bitOf old k := by
  have hlt : k < 32 := by omega
  simp only [bitOf, BitVec.getLsbD_or, BitVec.getLsbD_and, BitVec.getLsbD_not, getLsbD_byteMask_high en hk]
  by_cases he : en / 8 % 2 = 1
  · simp [he]
  · simp [he, hlt]

theorem cfgWord_msixCtl_bits (m : Mach) (d : SideId) :
    bitOf (m.cfgWord d .msixCtl) 31 = (m.side d).msix.enable ∧ bitOf (m.cfgWord d .msixCtl) 30 = (m.side d).msix.funcMask := by
  have h : ∀ e f : Bool, bitOf (BitVec.ofNat 32 (2 ^ 31 * b2n e + 2 ^ 30 * b2n f)) 31 = e ∧
      bitOf (BitVec.ofNat 32 (2 ^ 31 * b2n e + 2 ^ 30 * b2n f)) 30 = f := by decide
  exact h _ _

/-- Sending the pending messages keeps all but the event routers, the MSI-X states and what leaves the module. -/
@[simp] theorem Mach.flushPba_shell (m : Mach) (d : SideId) : (m.flushPba d).shell = m.shell := by
  refine Mach.foldl_keeps Mach.shell _ (fun t v => ?_) _ m
  simp only
  split
  · rw [Mach.emit_shell]; exact Mach.shell_setSide t d _ rfl
  · rfl

@[simp] theorem Mach.flushPba_rd (m : Mach) (d e : SideId) (off : Nat) : (m.flushPba d).rd e off = m.rd e off := by
  refine Mach.foldl_keeps (fun t => t.rd e off) _ (fun t v => ?_) _ m
  simp only
  split
  · rw [Mach.emit_rd]; exact Mach.rd_setSide t d e _ off rfl
  · rfl

@[simp] theorem Mach.flushPba_enable (m : Mach) (d : SideId) : ((m.flushPba d).side d).msix.enable = (m.side d).msix.enable := by
  refine Mach.foldl_keeps (fun t => (t.side d).msix.enable) _ (fun t v => ?_) _ m
  simp only
  split <;> simp

@[simp] theorem Mach.flushPba_funcMask (m : Mach) (d : SideId) : ((m.flushPba d).side d).msix.funcMask = (m.side d).msix.funcMask := by
  refine Mach.foldl_keeps (fun t => (t.side d).msix.funcMask) _ (fun t v => ?_) _ m
  simp only
  split <;> simp

/-- A write to the MSI-X control word reaches Enable and Function Mask where their byte is enabled, and may let messages go. -/
theorem gives_msixCtl {d : SideId} {en : Nat} {v : Word} {s : State} {p : State → Prop} (hf : s.m.fitted d = true)
    (he : (s.m.side d).endpoint = true)
    (hg : p { s with m := (s.tick.modSide d (fun x => { x with msix := { x.msix with
        enable := if en / 8 % 2 = 1 then bitOf v 31 else (s.m.side d).msix.enable
        funcMask := if en / 8 % 2 = 1 then bitOf v 30 else (s.m.side d).msix.funcMask } })).flushPba d }) :
    Gives (.registerWrite d .msixCtl 0 [(en, v)]) s p := by
  refine ⟨_, ?_, hg⟩
  show execRegisterWrite d .msixCtl 0 [(en, v)] s = _
  obtain ⟨hen, hfm⟩ := cfgWord_msixCtl_bits s.tick d
  rw [State.tick_side] at hen hfm
  rw [execRegisterWrite, if_neg (by simp [barSize])]
  refine onMem_keeps _ s ?_ ?_ ?_
  · simp [isCfg, regWrites, regWrite, Mach.writeMsixCtl, hf, he, bitOf_merge_high, hen, hfm]
  · rw [Mach.token_of_shell (Mach.flushPba_shell _ d), Mach.modSide_token, State.tick_token]
  · rw [Mach.part_of_shell (Mach.flushPba_shell _ d), Mach.modSide_part, State.tick_part]

/-! ### The clauses of the statement -/

/-- A whole word written to a register with no action of its own. -/
theorem registerWrite_free (s : State) (d : SideId) {off : Nat} (v : Word) {r : RegRow} (hw : off + 4 ≤ 0x1000000) (ha : off % 4 = 0)
    (hon : s.m.bar0On d off = true) (hab : regAbsent s.m.part off = false) (hr : rowOf off = some r) (hl : r.rwl = 0) (hc : r.clr = 0)
    (hst : stageReg off = false) (hp : plainOff off) :
    Gives (.registerWrite d .bar0 off [(15, v)]) s (fun t =>
      t.m.rd d off = ((s.m.rd d off &&& ~~~(r.rw ||| if s.m.droneRules d then r.fw else 0)) |||
        (v &&& (r.rw ||| if s.m.droneRules d then r.fw else 0))) &&& ~~~(r.w1c &&& v) ∧
      t.m.OnlyRegs s.m [off] ∧ t.img = s.img) := by
  obtain ⟨cs, hcs⟩ := writeBar0_of_plainOff v (s.img, s.tick) ((s.tick_bar0On d off).trans hon) hab hr hp
  rw [Mach.writePlain_free _ _ _ hst hl hc] at hcs
  refine gives_writeBar0 hw ha hcs (Mach.wr_token _ _ _ _) (Mach.wr_part _ _ _ _) ⟨?_, fun e x hx hne => ?_, rfl⟩
  · rw [Mach.rd_caps, Mach.rd_wr_self]
    simp only [State.tick_rd, State.tick_droneRules]
  · rw [Mach.rd_caps, Mach.wr_onlyRegs _ _ _ _ e x hx hne, State.tick_rd]

/-- A SEQ step register takes the value while the sequencer is off (R91). -/
theorem registerWrite_stepRails_off (s : State) (d : SideId) {i : Nat} (v : Word) (hi : i < 16) (hon : s.m.bar0On d 0x40100 = true)
    (hq : s.m.seqState = 0) :
    Gives (.registerWrite d .bar0 (0x40100 + 4 * i) [(15, v)]) s (fun t =>
      t.m.rd .a (0x40100 + 4 * i) = (s.m.rd .a (0x40100 + 4 * i) &&& 0xFF000000) ||| (v &&& 0x00FFFFFF) ∧
      t.m.OnlyRegs s.m [0x40100 + 4 * i]) := by
  have hm : moduleWide (0x40100 + 4 * i) = true := by simp only [moduleWide, decide_eq_true_eq]; omega
  have hu : s.tick.unitStopped d (0x40100 + 4 * i) = true := by simp [unitStopped_stepRails _ _ hi, hq]
  have he := Mach.writePlain_rwl_stopped s.tick d v (stageReg_stepRails hi) stepRailsRow_onlyRwl hu
  refine gives_stepRails hi hon (by rw [he]; exact Mach.wr_token _ _ _ _) (by rw [he]; exact Mach.wr_part _ _ _ _)
    (fun cs => ⟨?_, fun e x hx hne => ?_⟩)
  · rw [Mach.rd_caps, he, Mach.rd_moduleWide _ .a d hm, Mach.rd_wr_self, State.tick_rd, Mach.rd_moduleWide _ .a d hm]
    rfl
  · rw [Mach.rd_caps, he, Mach.wr_onlyRegs _ _ _ _ e x hx hne, State.tick_rd]

/-- A SEQ step register stays while the sequencer is not off, and the write raises event 10 with a log entry (R14, R91). -/
theorem registerWrite_stepRails_on (s : State) (d : SideId) {i : Nat} (v : Word) (hi : i < 16) (hon : s.m.bar0On d 0x40100 = true)
    (hq : s.m.seqState ≠ 0) :
    Gives (.registerWrite d .bar0 (0x40100 + 4 * i) [(15, v)]) s (fun t =>
      t.m.OnlyRegs s.m [] ∧ (t.m.side d).evt.pend.getLsbD 10 = true ∧
        ∃ e, t.m.log = e :: s.m.log ∧ e.args = [((0x40100 + 4 * i : Nat) : Int)]) := by
  have hb : 0x40100 + 4 * i < bar4 := by unfold bar4; omega
  have hu : s.tick.unitStopped d (0x40100 + 4 * i) = false := by simp [unitStopped_stepRails _ _ hi, hq]
  have he := Mach.writePlain_rwl_running s.tick d v (stageReg_stepRails hi) stepRailsRow_onlyRwl (by decide) hu
  have hlike := Mach.regError_like (s.tick.wr d (0x40100 + 4 * i) (s.tick.rd d (0x40100 + 4 * i))) d (0x40100 + 4 * i)
  obtain ⟨hf, hs⟩ := Mach.runs_of_bar0On hon
  refine gives_stepRails hi hon ?_ ?_ (fun cs => ⟨fun e x hx _ => ?_, ?_, ?_⟩)
  · rw [he, Mach.token_of_shell hlike.1, Mach.wr_token, State.tick_token]
  · rw [he, Mach.part_of_shell hlike.1, Mach.wr_part, State.tick_part]
  · rw [Mach.rd_caps, he, hlike.2.1 e x hx, Mach.rd_wr_rd, State.tick_rd]
  · have hsh := Mach.wr_shell s.tick d (0x40100 + 4 * i) (s.tick.rd d (0x40100 + 4 * i))
    have hpend := Mach.regError_pend (s.tick.wr d (0x40100 + 4 * i) (s.tick.rd d (0x40100 + 4 * i))) d hb
      (by rw [Mach.fitted_of_shell hsh]; exact hf) (by rw [Mach.st_of_shell hsh, State.tick_side]; exact hs)
    rw [he]
    cases d <;> exact hpend
  · obtain ⟨e, hlog, hargs⟩ := Mach.regError_log (s.tick.wr d (0x40100 + 4 * i) (s.tick.rd d (0x40100 + 4 * i))) d hb
    rw [Mach.wr_log] at hlog
    rw [he]
    exact ⟨e, hlog, hargs⟩

/-- A write to EVT_STAT clears the bits written 1 (R165). -/
theorem registerWrite_evtStat (s : State) (d : SideId) {k : Nat} (v : Word) (hk : k < 4) (hon : s.m.bar0On d 0x100000 = true) :
    Gives (.registerWrite d .bar0 (0x100000 + 4 * k) [(15, v)]) s (fun t => (∀ n, n < 128 →
      (t.m.side d).evt.pend.getLsbD n = ((s.m.side d).evt.pend.getLsbD n && !(decide (n / 32 = k) && v.getLsbD (n % 32)))) ∧
      t.m.OnlyRegs s.m [] ∧ t.m.out = s.m.out) := by
  have hon' : s.tick.bar0On d (0x100000 + 4 * k) = true := by
    rw [State.tick_bar0On, s.m.bar0On_congr d (off' := 0x100000) (by omega), hon]
  have hw := writeBar0_evt v (s.img, s.tick) (by omega) hon' (regAbsent_evtStat _ k hk)
  rw [Mach.writeEvt_stat _ _ _ hk] at hw
  refine gives_writeBar0 (by omega) (by omega) hw (Mach.modSide_token _ _ _) (Mach.modSide_part _ _ _)
    ⟨fun n hn => ?_, fun e x _ _ => ?_, ?_⟩
  · simp only [Mach.side_modSide_self, State.tick_side, BitVec.getLsbD_and, BitVec.getLsbD_not, hn, decide_true, Bool.true_and,
      getLsbD_evtWord k v hn]
  · rw [Mach.rd_modSide _ _ _ _ _ rfl, State.tick_rd]
  · rw [Mach.modSide_out]
    rfl

/-- An access that breaks R130 is counted in BAD_ACCESS and changes no register of BAR0. -/
theorem registerWrite_badAccess (s : State) (d : SideId) {bar : Bar} {off : Nat} {words : List (Nat × Word)}
    (hw : off + 4 * words.length ≤ barSize bar) (hc : isCfg bar = false) (hb : badAccess off words = true) (hf : s.m.fitted d = true)
    (hs : (s.m.side d).st ≠ .down) (hd : (s.m.side d).d3 = false) :
    Gives (.registerWrite d bar off words) s (fun t =>
      t.m.get d linkStat 0 8 = min 0xFF (s.m.get d linkStat 0 8 + 1) ∧ t.m.OnlyRegs s.m [] ∧ t.img = s.img) := by
  refine gives_badAccess hw hc hb hf hs hd ⟨?_, fun e x hx _ => ?_, rfl⟩
  · rw [Mach.get_put_self _ _ _ _ (by omega)]
    omega
  · have hne : x ≠ linkStat := by unfold linkStat; omega
    rw [Mach.put_rd_ne _ _ _ _ _ _ hne, State.tick_rd]

/-- A write to the MSI-X control word reaches the bytes that it enables (R132). -/
theorem registerWrite_msixCtl (s : State) (d : SideId) (en : Nat) (v : Word) (hf : s.m.fitted d = true)
    (he : (s.m.side d).endpoint = true) :
    Gives (.registerWrite d .msixCtl 0 [(en, v)]) s (fun t => t.img = s.img ∧ t.m.OnlyRegs s.m [] ∧
      (t.m.side d).msix.enable = (if en / 8 % 2 = 1 then bitOf v 31 else (s.m.side d).msix.enable) ∧
      (t.m.side d).msix.funcMask = (if en / 8 % 2 = 1 then bitOf v 30 else (s.m.side d).msix.funcMask)) := by
  refine gives_msixCtl hf he ⟨rfl, fun e x _ _ => ?_, ?_, ?_⟩
  · rw [Mach.flushPba_rd, Mach.rd_modSide _ _ _ _ _ rfl, State.tick_rd]
  · rw [Mach.flushPba_enable, Mach.side_modSide_self]
  · rw [Mach.flushPba_funcMask, Mach.side_modSide_self]

/-- Settles O36, clause by clause: a write beyond the window stops, a plain register changes under its access codes, the step registers
of the sequencer and EVT_STAT by their own rules, an access that breaks R130 is counted, and the MSI-X control word goes by bytes. -/
theorem registerWriteActs : Obligations.RegisterWriteActs := by
  unfold Obligations.RegisterWriteActs
  refine ⟨fun s d bar off words h => if_pos h, ?_, ?_, fun s d k v hk hon => registerWrite_evtStat s d v hk hon, ?_, ?_⟩
  · intro s d off v r hw ha hon hab hr hl hc hst hevt hflt hrail hthm hdma hact
    exact registerWrite_free s d v hw ha hon hab hr hl hc hst ⟨hevt, hflt, hrail, hthm, hdma, hact⟩
  · exact fun s d i v hi hon =>
      ⟨registerWrite_stepRails_off s d v hi hon, registerWrite_stepRails_on s d v hi hon⟩
  · exact fun s d bar off words hw hc hb hf hs hd => registerWrite_badAccess s d hw hc hb hf hs hd
  · exact fun s d en v hf he => registerWrite_msixCtl s d en v hf he

end Sys2Proof.Machine
end
